-- ==== Sys2Proof/Word.lean ====
section
/-! DEFINITION. The words of the core: bytes, 32-bit words, and the name of a key schedule. -/

namespace Sys2Proof

/-- A byte: 8 bits, unsigned (R17, R18). -/
abbrev Byte := BitVec 8

/-- A word: 32 bits, unsigned (R14, R17). -/
abbrev Word := BitVec 32

/-- Which of the two key schedules an ADDROUNDKEY names (R102, R120): `enc` is ERK (SCH = 0), `dec` is DRK
(SCH = 1). -/
inductive Sched where
  | enc
  | dec
deriving DecidableEq, Repr

end Sys2Proof
end

