-- ==== Sys2Proof/Syntax.lean ====
section
/-! DEFINITION. The commands of the core, one constructor per row of the opcode table (R104). -/

namespace Sys2Proof

/-- A command (R104). The operands are those the command word carries (R102); a key length and a round index are counts,
so they are numbers and `Instr.wellFormed` says which fit their 8-bit fields. -/
inductive Instr where
  /-- NOP: nothing (R240). -/
  | nop
  /-- KEYEXP klen: expand a key of `klen` bytes into both schedules (R174). -/
  | keyexp (klen : Nat)
  /-- ENCRYPT: encrypt the block in STATE (R220). -/
  | encrypt
  /-- DECRYPT: decrypt the block in STATE (R224). -/
  | decrypt
  /-- GFMUL ga, gb: multiply two bytes in GF(2^8) (R135). -/
  | gfmul (ga gb : Byte)
  /-- SUBBYTES: the forward S-box on every state byte (R190). -/
  | subbytes
  /-- INVSUBBYTES: the inverse S-box on every state byte (R193). -/
  | invsubbytes
  /-- SHIFTROWS: rotate state row r left by r (R196). -/
  | shiftrows
  /-- INVSHIFTROWS: rotate state row r right by r (R199). -/
  | invshiftrows
  /-- MIXCOLUMNS: the MixColumns matrix on every state column (R202). -/
  | mixcolumns
  /-- INVMIXCOLUMNS: the inverse matrix on every state column (R205). -/
  | invmixcolumns
  /-- ADDROUNDKEY rnd, sch: XOR a round key of a schedule into STATE (R208). -/
  | addroundkey (rnd : Nat) (sch : Sched)
deriving DecidableEq, Repr

end Sys2Proof
end

