-- ==== Sys2Proof/WellFormed.lean ====
section
/-! DEFINITION. Which commands a command word can carry. -/

namespace Sys2Proof

/-- The operands fit their 8-bit fields (R102: KLEN and RND are 0..255). Every other operand fits by its type. A
well-formed command may still be refused by value at acceptance (R107). -/
def Instr.wellFormed : Instr → Bool
  | .nop => true
  | .keyexp klen => decide (klen < 256)
  | .encrypt => true
  | .decrypt => true
  | .gfmul _ _ => true
  | .subbytes => true
  | .invsubbytes => true
  | .shiftrows => true
  | .invshiftrows => true
  | .mixcolumns => true
  | .invmixcolumns => true
  | .addroundkey rnd _ => decide (rnd < 256)

end Sys2Proof
end

