-- ==== Sys2Proof/Decode.lean ====
section
/-! DEFINITION. Decoding a command word, total on every word and rejecting by name, and the encoder (R100 to R106). -/

namespace Sys2Proof

/-- Why a command word is illegal (R106). Every reason raises ILLEGAL_COMMAND at acceptance (R253). -/
inductive Reject where
  /-- Bits 31..24 (X) are not 0. -/
  | reservedX
  /-- OP is none of the opcodes of R104: 0x05..0x0F or 0x17..0xFF. -/
  | unassignedOpcode
  /-- A is not 0 where the opcode has no operand A. -/
  | operandA
  /-- B, or bits 7..1 of B for ADDROUNDKEY, is not 0 where the opcode has no operand there. -/
  | operandB
deriving DecidableEq, Repr

/-- OP, bits 7..0 (R100). -/
def fieldOP (w : Word) : Byte := w.extractLsb' 0 8
/-- A, bits 15..8 (R100). -/
def fieldA (w : Word) : Byte := w.extractLsb' 8 8
/-- B, bits 23..16 (R100). -/
def fieldB (w : Word) : Byte := w.extractLsb' 16 8
/-- X, bits 31..24 (R100). -/
def fieldX (w : Word) : Byte := w.extractLsb' 24 8

/-- A command that uses neither A nor B: both must be 0 (R106). -/
def decodePlain (i : Instr) (a b : Byte) : Except Reject Instr :=
  if a ≠ 0 then .error .operandA else if b ≠ 0 then .error .operandB else .ok i

/-- The command that OP, A and B stand for, or why they are illegal (R102, R104, R106). In ADDROUNDKEY bit 0 of B is SCH,
0 for ERK and 1 for DRK. -/
def decodeOp (op a b : Byte) : Except Reject Instr :=
  match op.toNat with
  | 0x00 => decodePlain .nop a b
  | 0x01 => if b = 0 then .ok (.keyexp a.toNat) else .error .operandB
  | 0x02 => decodePlain .encrypt a b
  | 0x03 => decodePlain .decrypt a b
  | 0x04 => .ok (.gfmul a b)
  | 0x10 => decodePlain .subbytes a b
  | 0x11 => decodePlain .invsubbytes a b
  | 0x12 => decodePlain .shiftrows a b
  | 0x13 => decodePlain .invshiftrows a b
  | 0x14 => decodePlain .mixcolumns a b
  | 0x15 => decodePlain .invmixcolumns a b
  | 0x16 =>
    if b = 0 then .ok (.addroundkey a.toNat .enc)
    else if b = 1 then .ok (.addroundkey a.toNat .dec)
    else .error .operandB
  | _ => .error .unassignedOpcode

/-- The command a word stands for, or why it is illegal (R101, R106): X must be 0. -/
def decode (w : Word) : Except Reject Instr :=
  if fieldX w = 0 then decodeOp (fieldOP w) (fieldA w) (fieldB w) else .error .reservedX

/-- `X || B || A || OP` with X = 0 (R100). -/
def packWord (op a b : Byte) : Word := 0#8 ++ b ++ a ++ op

/-- B of an ADDROUNDKEY (R104): SCH in bit 0, the other bits 0. -/
def fieldOfSched : Sched → Byte
  | .enc => 0
  | .dec => 1

/-- The command word of a command (R105). On a well-formed command it loses nothing. -/
def encode : Instr → Word
  | .nop => packWord 0x00 0 0
  | .keyexp klen => packWord 0x01 (BitVec.ofNat 8 klen) 0
  | .encrypt => packWord 0x02 0 0
  | .decrypt => packWord 0x03 0 0
  | .gfmul ga gb => packWord 0x04 ga gb
  | .subbytes => packWord 0x10 0 0
  | .invsubbytes => packWord 0x11 0 0
  | .shiftrows => packWord 0x12 0 0
  | .invshiftrows => packWord 0x13 0 0
  | .mixcolumns => packWord 0x14 0 0
  | .invmixcolumns => packWord 0x15 0 0
  | .addroundkey rnd sch => packWord 0x16 (BitVec.ofNat 8 rnd) (fieldOfSched sch)

/-- `legal(w)` as R106 writes it, independently of the decoder. -/
def legal (w : Word) : Bool :=
  fieldX w == 0 &&
    (if fieldOP w ∈ [0x00#8, 0x02#8, 0x03#8, 0x10#8, 0x11#8, 0x12#8, 0x13#8, 0x14#8, 0x15#8] then
      fieldA w == 0 && fieldB w == 0
    else if fieldOP w = 0x01#8 then fieldB w == 0
    else if fieldOP w = 0x04#8 then true
    else if fieldOP w = 0x16#8 then (fieldB w).extractLsb' 1 7 == 0#7
    else false)

/-- The decoder on an opcode-table word: bit 0 of `w` is bit 0 of the command word. A command is exactly one 32-bit
word that the host hands over whole (R73, R101), so the bits above `nbits` are 0 and a number of more than 32 bits is no
command. -/
def decodeTableWord (nbits w : Nat) : Option Instr :=
  let v := w % 2 ^ nbits
  if v < 2 ^ 32 then
    match decode (BitVec.ofNat 32 v) with
    | .ok i => some i
    | .error _ => none
  else none

end Sys2Proof
end

