-- ==== Sys2Proof/Config.lean ====
section
/-! DEFINITION. What the spec leaves to an implementation (R15, R72, R311) and the free values (R79). Every constant
here is opaque: nothing can be proved about its value, so a statement that mentions one holds whatever it is. -/

namespace Sys2Proof.Config

/-- What a free value may depend on: all the data the core holds, so that no statement can lean on a free value
being the same under two different keys or blocks (R311: constant-time behaviour is not claimed). -/
structure Snapshot where
  command : Word
  state   : Vector Word 4
  key     : Vector Word 8
  gfres   : Byte
  erk     : Vector Word 60
  drk     : Vector Word 60
deriving DecidableEq, Repr

/-- The free word a host read of STATE, GFRES, ERK or DRK answers while a command is in flight (R79): a fresh draw at
each read (the first argument is the number of the draw), whatever the offset. DESIGN CHOICE, log entry 2. -/
opaque freeRead : Nat → BitVec 8 → Snapshot → Word

/-- Cycles of a NOP beyond the first (R15). The first argument numbers the accepted command. Log entry 1. -/
opaque extraNop : Nat → Snapshot → Nat
/-- Cycles of a KEYEXP beyond the first (R15). -/
opaque extraKeyexp : Nat → Snapshot → Nat
/-- Cycles of an ENCRYPT beyond the first (R15). -/
opaque extraEncrypt : Nat → Snapshot → Nat
/-- Cycles of a DECRYPT beyond the first (R15). -/
opaque extraDecrypt : Nat → Snapshot → Nat
/-- Cycles of a GFMUL beyond the first (R15). -/
opaque extraGfmul : Nat → Snapshot → Nat
/-- Cycles of a step command beyond the first (R15). -/
opaque extraStep : Nat → Snapshot → Nat

/-- LAT_NOP of R15: a positive number of cycles, otherwise open (U2). -/
def latNop (n : Nat) (d : Snapshot) : Nat := extraNop n d + 1
/-- LAT_KEYEXP of R15. -/
def latKeyexp (n : Nat) (d : Snapshot) : Nat := extraKeyexp n d + 1
/-- LAT_ENCRYPT of R15. -/
def latEncrypt (n : Nat) (d : Snapshot) : Nat := extraEncrypt n d + 1
/-- LAT_DECRYPT of R15. -/
def latDecrypt (n : Nat) (d : Snapshot) : Nat := extraDecrypt n d + 1
/-- LAT_GFMUL of R15. -/
def latGfmul (n : Nat) (d : Snapshot) : Nat := extraGfmul n d + 1
/-- LAT_STEP of R15, for the seven step commands. -/
def latStep (n : Nat) (d : Snapshot) : Nat := extraStep n d + 1

/-- Chooses the KLEN that a host issues KEYEXP with for a key of 256 bytes or more, whose length no KLEN holds
(R102, R122). Log entry 9. -/
opaque longKeyLength : Nat → Nat

/-- REG_BASE / 4 (R70, R72, U14): where a byte-addressed bus places the register space, a platform parameter. -/
opaque regBaseWord : Nat

/-- REG_BASE (R70), a multiple of 4 because R70 places word offset `off` at byte address `base + 4 × off` and R73 refuses
every byte address that is not a multiple of 4. DEDUCED, log entry 4. -/
def regBase : Nat := 4 * regBaseWord

end Sys2Proof.Config
end

