-- ==== Sys2Proof/Machine/State.lean ====
section
/-! DEFINITION. The state of the machine as plain data: the core's registers (R30), and the host's side of it. -/

namespace Sys2Proof.Machine

/-- The working block, four words, one column each (R22, R31). -/
abbrev Block := Vector Word 4

/-- A schedule buffer, 60 words (R36, R37). -/
abbrev ScheduleBuf := Vector Word 60

/-- The errors that can be recorded (R250). -/
inductive CmdError where
  | invalidKeySize
  | noKey
  | illegalCommand
  | roundOutOfRange
  | writeWhileBusy
deriving DecidableEq, Repr

/-- A register of the register map (R71). `reserved` is every offset the map gives no register. -/
inductive Reg where
  | cmd
  | status
  | gfres
  | state (c : Fin 4)
  | key (i : Fin 8)
  | erk (j : Fin 60)
  | drk (j : Fin 60)
  | reserved
deriving DecidableEq, Repr

/-- One action of the host (R27, R120). -/
inductive HostAction where
  /-- `RD`: HostRead(off) (R74). -/
  | read (off : BitVec 8)
  /-- `WR`: HostWrite(off, v) (R75). -/
  | write (off : BitVec 8) (v : Word)
  /-- `RESET`: assertion of the reset input (R290). -/
  | reset
  /-- `WAIT`: read STATUS again and again until its bit 0 is 0 (R121). -/
  | wait
  /-- A read of `bytes` bytes at byte address `addr` by a byte-addressed integration (R70, R73). -/
  | busRead (addr bytes : Nat)
  /-- A write of `bytes` bytes at byte address `addr` by a byte-addressed integration (R70, R73). -/
  | busWrite (addr bytes : Nat) (v : Word)
deriving DecidableEq, Repr

/-- A value a host read returned (R29). -/
structure Observation where
  off   : BitVec 8
  value : Word
deriving DecidableEq, Repr

/-- The machine. The first part is the core's state, field by field as R30 lists it; the second part is the model's own
(R27's host, and the counters the free values are drawn with). -/
structure State where
  /-- STATE[0..3], the working block (R31). -/
  state   : Block
  /-- KEY[0..7] (R32). -/
  key     : Vector Word 8
  /-- CMD, the last word written to it while idle (R41). -/
  cmd     : Word
  /-- STATUS.BUSY (R42). -/
  busy    : Bool
  /-- STATUS.KV (R44). -/
  kv      : Bool
  /-- STATUS.ERR (R42). -/
  err     : Bool
  /-- STATUS.ECODE (R42, R250). -/
  ecode   : BitVec 4
  /-- STATUS.NR (R45). -/
  nr      : BitVec 4
  /-- STATUS.NK (R45). -/
  nk      : BitVec 4
  /-- GFRES (R34). -/
  gfres   : Byte
  /-- ERK[0..59], the encryption schedule (R36). -/
  erk     : ScheduleBuf
  /-- DRK[0..59], the decryption schedule (R37). -/
  drk     : ScheduleBuf
  /-- PENDING, the command in flight (R47). -/
  pending : Option Word
  /-- The model's own: how many more host steps fit in before the in-flight command completes (R15, R112). Log entry 1. -/
  remaining : Nat
  /-- The model's own: how many commands have been accepted; it numbers the draws of a latency. Log entry 1. -/
  accepted  : Nat
  /-- The model's own: how many free words reads have drawn; it numbers the draws of R79. Log entry 2. -/
  freeReads : Nat
  /-- The model's own: the host's actions still to come, the next one first (R27, R80). Log entry 3. -/
  host      : List HostAction
  /-- The model's own: what the host's reads have returned, the latest first (R29). Log entry 3. -/
  observed  : List Observation
deriving DecidableEq, Repr

/-- The state after reset (R54, R290), with a host that has nothing to do yet (log entry 3). -/
def State.reset : State where
  state := Vector.replicate 4 0
  key := Vector.replicate 8 0
  cmd := 0
  busy := false
  kv := false
  err := false
  ecode := 0
  nr := 0
  nk := 0
  gfres := 0
  erk := Vector.replicate 60 0
  drk := Vector.replicate 60 0
  pending := none
  remaining := 0
  accepted := 0
  freeReads := 0
  host := []
  observed := []

/-- Reasons for which a step stops with a fault. -/
inductive Fault where
  /-- Raised by `step` when PENDING holds a word that is no command. Acceptance stores only legal words (R110), so no
  state that meets `CoreInv` raises it; the spec gives such a state no next step. Safe: the model stops. -/
  | undecodableInFlight
deriving DecidableEq, Repr

/-- Reasons for which a step is refused. -/
inductive Refusal where
  /-- Raised by a row of `exec` that has no meaning yet; no row is left. Safe. -/
  | notModelled (mnemonic : String)
  /-- Raised by a bus access narrower or wider than a word (R73, U12). Safe. -/
  | accessWidth
  /-- Raised by a bus access whose byte address is not a multiple of 4 (R73, U12). Safe. -/
  | misaligned
  /-- Raised by a bus access outside the 256 words of the register space, which is no access to this core (R70). Safe. -/
  | outsideRegisterSpace
deriving DecidableEq, Repr

end Sys2Proof.Machine
end

