-- ==== Sys2Proof/Machine/Operands.lean ====
section
/-! DEFINITION. How data is laid out in words, and the operands a command reads (R19, R22, R23, R33, R102, R103). -/

namespace Sys2Proof.Machine

/-- `byte(w, k)`: byte k of a word, byte 0 the most significant (R19). -/
def byte (w : Word) (k : Fin 4) : Byte := w.extractLsb' (24 - 8 * k.val) 8

/-- `word(b0, b1, b2, b3) = b0 || b1 || b2 || b3` (R19). -/
def word (b0 b1 b2 b3 : Byte) : Word := b0 ++ b1 ++ b2 ++ b3

/-- `s(r, c) = byte(STATE[c], r)`: the byte at row r, column c (R22). -/
def Block.byteAt (b : Block) (r c : Fin 4) : Byte := byte (b.get c) r

/-- The block whose byte at row r, column c is `f r c` (R22). -/
def Block.ofBytes (f : Fin 4 → Fin 4 → Byte) : Block :=
  Vector.ofFn fun c => word (f 0 c) (f 1 c) (f 2 c) (f 3 c)

/-- Block byte n, n in 0..15: `s(n mod 4, n / 4)` (R22, R76). -/
def Block.byteN (b : Block) (n : Fin 16) : Byte :=
  b.byteAt ⟨n.val % 4, by omega⟩ ⟨n.val / 4, by omega⟩

/-- Key byte n, n in 0..31: `byte(KEY[n / 4], n mod 4)` (R33). -/
def keyByte (key : Vector Word 8) (n : Nat) : Byte :=
  byte (key.getD (n / 4) 0) ⟨n % 4, by omega⟩

/-- The key bytes 0..klen-1 a KEYEXP expands (R174). -/
def keyBytes (key : Vector Word 8) (klen : Nat) : List Byte :=
  (List.range klen).map (keyByte key)

/-- (Nk, Nr) of a key length in bytes, none for a length the core refuses (R11). -/
def keyParams (klen : Nat) : Option (Nat × Nat) :=
  if klen = 16 then some (4, 10)
  else if klen = 24 then some (6, 12)
  else if klen = 32 then some (8, 14)
  else none

/-- The buffer a round key is read from: ERK for SCH = 0, DRK for SCH = 1 (R208). -/
def State.schedule (s : State) : Sched → ScheduleBuf
  | .enc => s.erk
  | .dec => s.drk

/-- Word c of round key i of a schedule, `K[4*i + c]` (R23, R207). Round keys 0..Nr lie inside the buffer (R209); the
word past its end that the default stands for is read in no state that meets `CoreInv` (log entry 7). -/
def roundKeyWord (k : ScheduleBuf) (i : Nat) (c : Fin 4) : Word := k.getD (4 * i + c.val) 0

/-- Everything a free value may depend on (log entries 1 and 2). -/
def State.snapshot (s : State) : Config.Snapshot where
  command := s.cmd
  state := s.state
  key := s.key
  gfres := s.gfres
  erk := s.erk
  drk := s.drk

end Sys2Proof.Machine
end

