-- ==== Sys2Proof/Machine/Flags.lean ====
section
/-! DEFINITION. STATUS: its fields, the word a read gives, and the error codes. The core has no flag that a command sets
from a data value (R51). -/

namespace Sys2Proof.Machine

/-- ECODE of an error (R250). -/
def CmdError.code : CmdError → BitVec 4
  | .invalidKeySize => 1
  | .noKey => 2
  | .illegalCommand => 3
  | .roundOutOfRange => 4
  | .writeWhileBusy => 5

/-- One bit of STATUS. -/
def flagBit (b : Bool) : BitVec 1 := BitVec.ofBool b

/-- The word a read of STATUS gives: `0x0000 || NK || NR || ECODE || 0 || ERR || KV || BUSY` (R42, R74). -/
def State.statusWord (s : State) : Word :=
  0#16 ++ s.nk ++ s.nr ++ s.ecode ++ 0#1 ++ flagBit s.err ++ flagBit s.kv ++ flagBit s.busy

/-- STATUS.BUSY in a word read from STATUS: bit 0 (R121). -/
def busyBit (v : Word) : Bool := v.getLsbD 0

/-- The bit of a STATUS write that clears the error record: bit 2 (R43). -/
def clearBit (v : Word) : Bool := v.getLsbD 2

end Sys2Proof.Machine
end

