-- ==== Sys2Proof/Machine/Ops.lean ====
section
/-! DEFINITION. The operations every command shares: recording an error (this core's only exception, R258, R262) and
clearing the record, acceptance (R110), completion (R112), the life of a command, and reset (R290). -/

namespace Sys2Proof.Machine

/-- `STATE <- b` (R31). -/
def setBlock (b : Block) (s : State) : State := { s with state := b }

/-- `STATE[c] <- v` (R75). -/
def setStateWord (c : Fin 4) (v : Word) (s : State) : State := { s with state := s.state.set c.val v }

/-- `KEY[i] <- v` (R75). -/
def setKeyWord (i : Fin 8) (v : Word) (s : State) : State := { s with key := s.key.set i.val v }

/-- `CMD <- v` (R41, R75). -/
def setCmd (v : Word) (s : State) : State := { s with cmd := v }

/-- `GFRES <- v` (R34). -/
def setGfres (v : Byte) (s : State) : State := { s with gfres := v }

/-- The host's actions still to come. -/
def setHost (l : List HostAction) (s : State) : State := { s with host := l }

/-- One host step of the in-flight window goes by (R300, log entry 1). -/
def tick (s : State) : State := { s with remaining := s.remaining - 1 }

/-- `raise E` (R258): ERR is set, and ECODE keeps the first error since the last clear. Nothing else changes (R262). -/
def raiseError (e : CmdError) (s : State) : State :=
  { s with ecode := if s.err then s.ecode else e.code, err := true }

/-- CLRERR: ERR and ECODE are cleared together (R43, R259). It is the only recovery; there is no trap return (R263). -/
def clearError (s : State) : State :=
  { s with err := false, ecode := 0 }

/-- The checks acceptance makes on a legal command, in the order of R110: the error of the first that fails. -/
def acceptError (i : Instr) (s : State) : Option CmdError :=
  match i with
  | .keyexp klen => if (keyParams klen).isNone then some .invalidKeySize else none
  | .encrypt => if s.kv then none else some .noKey
  | .decrypt => if s.kv then none else some .noKey
  | .addroundkey rnd _ =>
    if s.kv = false then some .noKey
    else if rnd > s.nr.toNat then some .roundOutOfRange
    else none
  | .nop => none
  | .gfmul _ _ => none
  | .subbytes => none
  | .invsubbytes => none
  | .shiftrows => none
  | .invshiftrows => none
  | .mixcolumns => none
  | .invmixcolumns => none

/-- The latency of a command, in cycles (R15). -/
def latency (i : Instr) (n : Nat) (d : Config.Snapshot) : Nat :=
  match i with
  | .nop => Config.latNop n d
  | .keyexp _ => Config.latKeyexp n d
  | .encrypt => Config.latEncrypt n d
  | .decrypt => Config.latDecrypt n d
  | .gfmul _ _ => Config.latGfmul n d
  | .subbytes => Config.latStep n d
  | .invsubbytes => Config.latStep n d
  | .shiftrows => Config.latStep n d
  | .invshiftrows => Config.latStep n d
  | .mixcolumns => Config.latStep n d
  | .invmixcolumns => Config.latStep n d
  | .addroundkey _ _ => Config.latStep n d

/-- The end of acceptance: `PENDING <- w; BUSY <- 1` (R110), and the number of host steps that fit in before the
completion step is drawn: one less than the latency, which is positive (R15, log entry 1). -/
def acceptCommand (i : Instr) (s : State) : State :=
  { s with
    pending := some (encode i)
    busy := true
    remaining := latency i s.accepted s.snapshot - 1
    accepted := s.accepted + 1 }

/-- Acceptance of a legal command (R110): it is refused with the first error that applies, or goes into flight. -/
def accept (i : Instr) (s : State) : State :=
  match acceptError i s with
  | some e => raiseError e s
  | none => acceptCommand i s

/-- The end of completion: `PENDING <- none; BUSY <- 0` (R112). -/
def finishCommand (s : State) : State :=
  { s with pending := none, busy := false, remaining := 0 }

/-- The life of command i, whose whole effect turns `s` into `done`. While nothing is in flight this is its acceptance
(R110). While it is in flight this is its completion (R112): its whole effect at once, and the core is idle again. -/
def runCommand (i : Instr) (done : State) (s : State) : Host.Outcome State Fault Refusal :=
  match s.pending with
  | none => .next (accept i s)
  | some _ => .next (finishCommand done)

/-- Reset (R290, R291): every register of the core to its reset value, an in-flight command discarded. The host's
actions, what it has read and the draw counters are no state of the core and stay. -/
def resetCore (s : State) : State :=
  { State.reset with
    host := s.host
    observed := s.observed
    accepted := s.accepted
    freeReads := s.freeReads }

end Sys2Proof.Machine
end

