-- ==== Sys2Proof/Machine/GfMultiply.lean ====
section
/-! DEFINITION. The GF(2^8) multiplier and GFMUL (R130 to R135). -/

namespace Sys2Proof.Machine

/-- The multiplier's three bytes: the accumulator p and the operands a and b as R130 changes them. -/
structure GfState where
  p : Byte
  a : Byte
  b : Byte
deriving DecidableEq, Repr

/-- `xtime(a)`: multiplication by x (R132), the shift of a in R130. -/
def xtime (a : Byte) : Byte :=
  if a.getLsbD 7 then (a <<< 1) ^^^ 0x1b#8 else a <<< 1

/-- One iteration of R130. -/
def gfStep (g : GfState) : GfState where
  p := if g.b.getLsbD 0 then g.p ^^^ g.a else g.p
  a := xtime g.a
  b := g.b >>> 1

/-- n iterations of R130. -/
def gfIterate : Nat → GfState → GfState
  | 0, g => g
  | n + 1, g => gfIterate n (gfStep g)

/-- `gfmul(a, b)`: the product in GF(2^8), 8 iterations from p = 0 (R130). -/
def gfmul (a b : Byte) : Byte := (gfIterate 8 ⟨0, a, b⟩).p

/-- GFMUL ga, gb (R135): `GFRES <- gfmul(GA, GB)`. -/
def execGfmul (ga gb : Byte) (s : State) : Host.Outcome State Fault Refusal :=
  runCommand (.gfmul ga gb) (setGfres (gfmul ga gb) s) s

end Sys2Proof.Machine
end

