-- ==== Sys2Proof/Machine/RoundSteps.lean ====
section
/-! DEFINITION. The round transforms and the seven step commands (R190 to R212). -/

namespace Sys2Proof.Machine

/-- SubBytes (R190): SBOX on every state byte. -/
def subBytes (s : Block) : Block := Block.ofBytes fun r c => sbox (s.byteAt r c)

/-- InvSubBytes (R193): INV_SBOX on every state byte. -/
def invSubBytes (s : Block) : Block := Block.ofBytes fun r c => invSbox (s.byteAt r c)

/-- ShiftRows (R195): `s'(r, c) <- s(r, (c + r) mod 4)`; the sum in `Fin 4` is mod 4. -/
def shiftRows (s : Block) : Block := Block.ofBytes fun r c => s.byteAt r (c + r)

/-- InvShiftRows (R197): `s'(r, c) <- s(r, (c - r) mod 4)`; the difference in `Fin 4` is mod 4. -/
def invShiftRows (s : Block) : Block := Block.ofBytes fun r c => s.byteAt r (c - r)

/-- MixColumn of one word (R201). -/
def mixColumn (w : Word) : Word :=
  let a0 := byte w 0
  let a1 := byte w 1
  let a2 := byte w 2
  let a3 := byte w 3
  word
    (gfmul 0x02 a0 ^^^ gfmul 0x03 a1 ^^^ a2 ^^^ a3)
    (a0 ^^^ gfmul 0x02 a1 ^^^ gfmul 0x03 a2 ^^^ a3)
    (a0 ^^^ a1 ^^^ gfmul 0x02 a2 ^^^ gfmul 0x03 a3)
    (gfmul 0x03 a0 ^^^ a1 ^^^ a2 ^^^ gfmul 0x02 a3)

/-- InvMixColumn of one word (R204). -/
def invMixColumn (w : Word) : Word :=
  let a0 := byte w 0
  let a1 := byte w 1
  let a2 := byte w 2
  let a3 := byte w 3
  word
    (gfmul 0x0e a0 ^^^ gfmul 0x0b a1 ^^^ gfmul 0x0d a2 ^^^ gfmul 0x09 a3)
    (gfmul 0x09 a0 ^^^ gfmul 0x0e a1 ^^^ gfmul 0x0b a2 ^^^ gfmul 0x0d a3)
    (gfmul 0x0d a0 ^^^ gfmul 0x09 a1 ^^^ gfmul 0x0e a2 ^^^ gfmul 0x0b a3)
    (gfmul 0x0b a0 ^^^ gfmul 0x0d a1 ^^^ gfmul 0x09 a2 ^^^ gfmul 0x0e a3)

/-- MixColumns (R201): MixColumn of every column. -/
def mixColumns (s : Block) : Block := s.map mixColumn

/-- InvMixColumns (R204): InvMixColumn of every column. -/
def invMixColumns (s : Block) : Block := s.map invMixColumn

/-- AddRoundKey with round key i of schedule k (R207). -/
def addRoundKey (s : Block) (k : ScheduleBuf) (i : Nat) : Block :=
  Vector.ofFn fun c => s.get c ^^^ roundKeyWord k i c

/-- SUBBYTES (R190). -/
def execSubbytes (s : State) : Host.Outcome State Fault Refusal :=
  runCommand .subbytes (setBlock (subBytes s.state) s) s

/-- INVSUBBYTES (R193). -/
def execInvsubbytes (s : State) : Host.Outcome State Fault Refusal :=
  runCommand .invsubbytes (setBlock (invSubBytes s.state) s) s

/-- SHIFTROWS (R196). -/
def execShiftrows (s : State) : Host.Outcome State Fault Refusal :=
  runCommand .shiftrows (setBlock (shiftRows s.state) s) s

/-- INVSHIFTROWS (R199). -/
def execInvshiftrows (s : State) : Host.Outcome State Fault Refusal :=
  runCommand .invshiftrows (setBlock (invShiftRows s.state) s) s

/-- MIXCOLUMNS (R202). -/
def execMixcolumns (s : State) : Host.Outcome State Fault Refusal :=
  runCommand .mixcolumns (setBlock (mixColumns s.state) s) s

/-- INVMIXCOLUMNS (R205). -/
def execInvmixcolumns (s : State) : Host.Outcome State Fault Refusal :=
  runCommand .invmixcolumns (setBlock (invMixColumns s.state) s) s

/-- ADDROUNDKEY rnd, sch (R208): round key `rnd` of the schedule SCH selects, XORed into STATE. -/
def execAddroundkey (rnd : Nat) (sch : Sched) (s : State) : Host.Outcome State Fault Refusal :=
  runCommand (.addroundkey rnd sch) (setBlock (addRoundKey s.state (s.schedule sch) rnd) s) s

end Sys2Proof.Machine
end

