-- ==== Sys2Proof/Machine/KeySchedule.lean ====
section
/-! DEFINITION. The key schedule unit and KEYEXP (R170 to R181). -/

namespace Sys2Proof.Machine

/-- RotWord: `word(b0, b1, b2, b3)` to `word(b1, b2, b3, b0)` (R170). -/
def rotWord (w : Word) : Word := word (byte w 1) (byte w 2) (byte w 3) (byte w 0)

/-- RconWord(i): `RCON[i / Nk - 1] << 24` (R171). -/
def rconWord (nk i : Nat) : Word := word (rcon (i / nk - 1)) 0 0 0

/-- What the previous word becomes before it is XORed into word i (R172, step 2; R173). -/
def scheduleTerm (nk i : Nat) (t : Word) : Word :=
  if i % nk = 0 then subWord (rotWord t) ^^^ rconWord nk i
  else if nk > 6 ∧ i % nk = 4 then subWord t
  else t

/-- One iteration of R172, step 2: word i from words i - 1 and i - Nk. -/
def expandStep (nk : Nat) (w : List Word) (i : Nat) : List Word :=
  w ++ [w.getD (i - nk) 0 ^^^ scheduleTerm nk i (w.getD (i - 1) 0)]

/-- R172, step 1: the key's bytes, four to a word. -/
def keyWords (k : List Byte) (nk : Nat) : List Word :=
  (List.range nk).map fun i =>
    word (k.getD (4 * i) 0) (k.getD (4 * i + 1) 0) (k.getD (4 * i + 2) 0) (k.getD (4 * i + 3) 0)

/-- KeyExpansion (R172): the 4 × (Nr + 1) words of the encryption schedule. -/
def keyExpansion (k : List Byte) (nk nr : Nat) : List Word :=
  (List.range' nk (4 * (nr + 1) - nk)).foldl (expandStep nk) (keyWords k nk)

/-- InverseSchedule (R176): round order reversed, InvMixColumn on every word of an interior round. -/
def inverseSchedule (e : List Word) (nr : Nat) : List Word :=
  (List.range (4 * (nr + 1))).map fun n =>
    let i := n / 4
    let x := e.getD (4 * (nr - i) + n % 4) 0
    if 0 < i ∧ i < nr then invMixColumn x else x

/-- What KEYEXP stores in a buffer: the schedule's 4 × (Nr + 1) words, and 0 in the words beyond (R36, R37, R174). -/
def scheduleBuf (w : List Word) (nr : Nat) : ScheduleBuf :=
  Vector.ofFn fun j => if j.val < 4 * (nr + 1) then w.getD j.val 0 else 0

/-- The encryption schedule of the key in KEY (R174). -/
def encSchedule (key : Vector Word 8) (nk nr : Nat) : List Word :=
  keyExpansion (keyBytes key (4 * nk)) nk nr

/-- The effect of KEYEXP on the state (R174, R177): both schedules, NR, NK and KV, all at once. -/
def expandKey (nk nr : Nat) (s : State) : State :=
  { s with
    erk := scheduleBuf (encSchedule s.key nk nr) nr
    drk := scheduleBuf (inverseSchedule (encSchedule s.key nk nr) nr) nr
    nr := BitVec.ofNat 4 nr
    nk := BitVec.ofNat 4 nk
    kv := true }

/-- KEYEXP klen (R174). A length the core refuses never gets as far as the effect (R110, R251). -/
def execKeyexp (klen : Nat) (s : State) : Host.Outcome State Fault Refusal :=
  runCommand (.keyexp klen)
    (match keyParams klen with
      | some p => expandKey p.1 p.2 s
      | none => s)
    s

end Sys2Proof.Machine
end

