-- ==== Sys2Proof/Machine/BlockTransform.lean ====
section
/-! DEFINITION. The block transform: ENCRYPT and DECRYPT (R220 to R231), and the textbook inverse cipher the spec compares
DECRYPT with (R228). -/

namespace Sys2Proof.Machine

/-- An interior round of Cipher (R220). -/
def encRound (k : ScheduleBuf) (s : Block) (i : Nat) : Block :=
  addRoundKey (mixColumns (shiftRows (subBytes s))) k i

/-- Cipher (R220). -/
def cipher (s : Block) (k : ScheduleBuf) (nr : Nat) : Block :=
  let s := addRoundKey s k 0
  let s := (List.range' 1 (nr - 1)).foldl (encRound k) s
  addRoundKey (shiftRows (subBytes s)) k nr

/-- An interior round of EqInvCipher (R224). -/
def decRound (k : ScheduleBuf) (s : Block) (i : Nat) : Block :=
  addRoundKey (invMixColumns (invShiftRows (invSubBytes s))) k i

/-- EqInvCipher (R224). -/
def eqInvCipher (s : Block) (k : ScheduleBuf) (nr : Nat) : Block :=
  let s := addRoundKey s k 0
  let s := (List.range' 1 (nr - 1)).foldl (decRound k) s
  addRoundKey (invShiftRows (invSubBytes s)) k nr

/-- A round of the textbook inverse cipher, with round key i (R228). -/
def invRound (k : ScheduleBuf) (s : Block) (i : Nat) : Block :=
  invMixColumns (addRoundKey (invSubBytes (invShiftRows s)) k i)

/-- InvCipher, the textbook inverse cipher on the encryption schedule, rounds Nr-1 down to 1 (R228). The core does not
implement it; R228 states it as an equivalent of EqInvCipher. -/
def invCipher (s : Block) (k : ScheduleBuf) (nr : Nat) : Block :=
  let s := addRoundKey s k nr
  let s := (List.range' 1 (nr - 1)).reverse.foldl (invRound k) s
  addRoundKey (invSubBytes (invShiftRows s)) k 0

/-- ENCRYPT (R220): `STATE <- Cipher(STATE, ERK, NR)`. -/
def execEncrypt (s : State) : Host.Outcome State Fault Refusal :=
  runCommand .encrypt (setBlock (cipher s.state s.erk s.nr.toNat) s) s

/-- DECRYPT (R224): `STATE <- EqInvCipher(STATE, DRK, NR)`. -/
def execDecrypt (s : State) : Host.Outcome State Fault Refusal :=
  runCommand .decrypt (setBlock (eqInvCipher s.state s.drk s.nr.toNat) s) s

end Sys2Proof.Machine
end

