-- ==== Sys2Proof/Machine/Control.lean ====
section
/-! DEFINITION. The control command NOP (R240). -/

namespace Sys2Proof.Machine

/-- NOP (R240): no state change at completion. -/
def execNop (s : State) : Host.Outcome State Fault Refusal :=
  runCommand .nop s s

end Sys2Proof.Machine
end

