-- ==== Sys2Proof/Machine/HostAccess.lean ====
section
/-! DEFINITION. The register map, the host's reads and writes, and the actions of the two agents (R27, R70 to R86,
R110 to R112, R121). -/

namespace Sys2Proof.Machine

/-- The register at a word offset (R71). -/
def regAt (off : BitVec 8) : Reg :=
  let n := off.toNat
  if n = 0x00 then .cmd
  else if n = 0x01 then .status
  else if n = 0x02 then .gfres
  else if h : 0x04 ≤ n ∧ n < 0x08 then .state ⟨n - 0x04, by omega⟩
  else if h : 0x08 ≤ n ∧ n < 0x10 then .key ⟨n - 0x08, by omega⟩
  else if h : 0x40 ≤ n ∧ n < 0x7C then .erk ⟨n - 0x40, by omega⟩
  else if h : 0x80 ≤ n ∧ n < 0xBC then .drk ⟨n - 0x80, by omega⟩
  else .reserved

/-- A register whose contents are not fixed while a command is in flight (R79). -/
def Reg.unfixedWhileBusy : Reg → Bool
  | .state _ => true
  | .gfres => true
  | .erk _ => true
  | .drk _ => true
  | .cmd => false
  | .status => false
  | .key _ => false
  | .reserved => false

/-- What a register holds, as the word a read gives (R74). -/
def regValue (s : State) : Reg → Word
  | .cmd => s.cmd
  | .status => s.statusWord
  | .gfres => s.gfres.setWidth 32
  | .state c => s.state.get c
  | .key i => s.key.get i
  | .erk j => s.erk.get j
  | .drk j => s.drk.get j
  | .reserved => 0

/-- The read of this offset answers a free word (R79). -/
def readIsFree (off : BitVec 8) (s : State) : Bool := s.busy && (regAt off).unfixedWhileBusy

/-- The word `HostRead(off)` returns (R74, R79). -/
def readValue (off : BitVec 8) (s : State) : Word :=
  if readIsFree off s then Config.freeRead s.freeReads off s.snapshot
  else regValue s (regAt off)

/-- HostRead (R74): the host observes the word; no register changes (R77). -/
def hostRead (off : BitVec 8) (s : State) : State :=
  { s with
    observed := ⟨off, readValue off s⟩ :: s.observed
    freeReads := if readIsFree off s then s.freeReads + 1 else s.freeReads }

/-- `CMD <- v; Accept(v)` (R75, R110): an illegal word raises ILLEGAL_COMMAND; a command runs its acceptance. -/
def issueCommand (v : Word) (s : State) : Host.Outcome State Fault Refusal :=
  let s := setCmd v s
  match decode v with
  | .error _ => .next (raiseError .illegalCommand s)
  | .ok i => exec i s

/-- A write to a register of an idle core (R75): a write to a read-only register or a reserved offset has no effect. -/
def writeReg (r : Reg) (v : Word) (s : State) : Host.Outcome State Fault Refusal :=
  match r with
  | .cmd => issueCommand v s
  | .status => .next (if clearBit v then clearError s else s)
  | .state c => .next (setStateWord c v s)
  | .key i => .next (setKeyWord i v s)
  | .gfres => .next s
  | .erk _ => .next s
  | .drk _ => .next s
  | .reserved => .next s

/-- HostWrite (R75): dropped and recorded while busy (R78, R256), else a write to the register at the offset. -/
def hostWrite (off : BitVec 8) (v : Word) (s : State) : Host.Outcome State Fault Refusal :=
  if s.busy then .next (raiseError .writeWhileBusy s) else writeReg (regAt off) v s

/-- The offset of STATUS (R71). -/
def statusOffset : BitVec 8 := 0x01

/-- One poll of WAIT (R121): a read of STATUS; while its bit 0 is 1 the WAIT goes on. -/
def hostWait (s : State) : State :=
  let s' := hostRead statusOffset s
  if busyBit (readValue statusOffset s) then setHost (.wait :: s'.host) s' else s'

/-- The word offset of a byte-addressed access (R70, R73): `base + 4 × off`, one whole aligned word. Any other access is
outside the model. -/
def busOffset (addr bytes : Nat) : Except Refusal (BitVec 8) :=
  if bytes ≠ 4 then .error .accessWidth
  else if addr % 4 ≠ 0 then .error .misaligned
  else if Config.regBase ≤ addr ∧ addr < Config.regBase + 4 * 256 then
    .ok (BitVec.ofNat 8 ((addr - Config.regBase) / 4))
  else .error .outsideRegisterSpace

/-- One action of the host. -/
def hostAction (a : HostAction) (s : State) : Host.Outcome State Fault Refusal :=
  match a with
  | .read off => .next (hostRead off s)
  | .write off v => hostWrite off v s
  | .reset => .next (resetCore s)
  | .wait => .next (hostWait s)
  | .busRead addr bytes =>
    match busOffset addr bytes with
    | .ok off => .next (hostRead off s)
    | .error r => .refused r
  | .busWrite addr bytes v =>
    match busOffset addr bytes with
    | .ok off => hostWrite off v s
    | .error r => .refused r

/-- The host's turn: its next action, or nothing if it has none. -/
def hostTurn (s : State) : Host.Outcome State Fault Refusal :=
  match s.host with
  | [] => .next s
  | a :: rest => hostAction a (setHost rest s)

/-- The engine's turn, its one enabled step (R112): the in-flight command completes. -/
def engineTurn (w : Word) (s : State) : Host.Outcome State Fault Refusal :=
  match decode w with
  | .ok i => exec i s
  | .error _ => .fault .undecodableInFlight

/-- One step: the completion of the in-flight command when its time has come, else the host's turn (R27, R80, R112). -/
def agentStep (s : State) : Host.Outcome State Fault Refusal :=
  match s.pending with
  | some w => if s.remaining = 0 then engineTurn w s else hostTurn (tick s)
  | none => hostTurn s

/-- The host about to issue command word w to an idle core: the write to CMD is its next action, and nothing is in
flight (R50, R80: the host sequences the commands). -/
def issueNext (w : Word) (s : State) : State :=
  { s with host := .write 0x00 w :: s.host, pending := none, busy := false }

end Sys2Proof.Machine
end

