-- ==== Sys2Proof/Machine/Step.lean ====
section
/-! DEFINITION. One step of the machine. -/

namespace Sys2Proof.Machine

/-- One step (R27, R28): the host's next action, or the engine's completion of the in-flight command. -/
def step (s : State) : Host.Outcome State Fault Refusal := agentStep s

/-- `s` with the command word of an opcode-table row as the next word the host writes to CMD, so that the next step
issues exactly that command (R50, R110; log entry 5). A row of more than 32 bits does not exist; the bits above `nbits` are 0. -/
def State.withFetchWord (s : State) (nbits w : Nat) : State :=
  issueNext (BitVec.ofNat 32 (w % 2 ^ nbits)) s

end Sys2Proof.Machine
end

