-- ==== Sys2Proof/Machine/HostProgram.lean ====
section
/-! DEFINITION. Host programs: register names, the pseudo-instructions and their expansions, and how a line is written
(R120 to R122, R294). -/

namespace Sys2Proof.Machine

/-- The word offset of a register (R71), none for `reserved`, which is no register. -/
def Reg.offset : Reg → Option (BitVec 8)
  | .cmd => some 0x00
  | .status => some 0x01
  | .gfres => some 0x02
  | .state c => some (BitVec.ofNat 8 (0x04 + c.val))
  | .key i => some (BitVec.ofNat 8 (0x08 + i.val))
  | .erk j => some (BitVec.ofNat 8 (0x40 + j.val))
  | .drk j => some (BitVec.ofNat 8 (0x80 + j.val))
  | .reserved => none

/-- A command line: `WR CMD, <word>` with the command's word (R120). -/
def commandLine (i : Instr) : HostAction := .write 0x00 (encode i)

/-- The bytes 4i .. 4i+3 of a byte string as one word, the first byte the most significant (R76). -/
def wordOfBytes (k : List Byte) (i : Nat) : Word :=
  word (k.getD (4 * i) 0) (k.getD (4 * i + 1) 0) (k.getD (4 * i + 2) 0) (k.getD (4 * i + 3) 0)

/-- The block of 16 bytes as the four words LDBLK writes (R22, R121). -/
def blockOfBytes (p : List Byte) : Block := Vector.ofFn fun c => wordOfBytes p c.val

/-- `WR` of the words of a byte string to consecutive offsets from `base` (R121). -/
def writeWords (base : Nat) (k : List Byte) (n : Nat) : List HostAction :=
  (List.range n).map fun i => .write (BitVec.ofNat 8 (base + i)) (wordOfBytes k i)

/-- `CLRERR`: `WR STATUS, 0x00000004` (R121). -/
def clrerr : List HostAction := [.write 0x01 0x00000004]

/-- `LDKEY k` (R121). A key longer than 32 bytes cannot be staged (R122), and for a
shorter one of another length nothing is written either, as R121 defines no LDKEY for it (log entry 9). -/
def ldkey (k : List Byte) : List HostAction :=
  if (keyParams k.length).isSome then writeWords 0x08 k (k.length / 4) else []

/-- `LDBLK p` with p of 16 bytes (R121). -/
def ldblk (p : List Byte) : List HostAction := writeWords 0x04 p 4

/-- `STBLK`: the four reads of STATE (R121). -/
def stblk : List HostAction := [.read 0x04, .read 0x05, .read 0x06, .read 0x07]

/-- The KLEN of the KEYEXP that a host issues for a key of n bytes (R121). KLEN has 8 bits (R102), and the spec states no
KLEN for a length of 256 or more, only that the host issues the length alone and the core refuses it (R122): it is a
free value among the encodable lengths longer than 32, all of which the core refuses (R251). Log entry 9. -/
def keyexpLength (n : Nat) : Nat := if n < 256 then n else 33 + Config.longKeyLength n % 223

/-- `SETKEY k`: `CLRERR`, `LDKEY k`, `KEYEXP <len(k)>`, `WAIT` (R121). -/
def setkey (k : List Byte) : List HostAction :=
  clrerr ++ ldkey k ++ [commandLine (.keyexp (keyexpLength k.length)), .wait]

/-- `ENC p`: `LDBLK p`, `ENCRYPT`, `WAIT`, `STBLK` (R121). -/
def encBlock (p : List Byte) : List HostAction := ldblk p ++ [commandLine .encrypt, .wait] ++ stblk

/-- `DEC c`: `LDBLK c`, `DECRYPT`, `WAIT`, `STBLK` (R121). -/
def decBlock (c : List Byte) : List HostAction := ldblk c ++ [commandLine .decrypt, .wait] ++ stblk

/-- `NewCipher(key)`: `SETKEY key` and then `RD STATUS` (R122). -/
def newCipher (k : List Byte) : List HostAction := setkey k ++ [.read 0x01]

/-- Commands, each followed by `WAIT` (R223, R227, R301). -/
def commandsWithWait (l : List Instr) : List HostAction :=
  l.flatMap fun i => [commandLine i, .wait]

/-- The step commands of interior round i of an encryption (R223). -/
def encryptRoundSteps (i : Nat) : List Instr := [.subbytes, .shiftrows, .mixcolumns, .addroundkey i .enc]

/-- The step commands that do what one ENCRYPT with nr rounds does (R223). -/
def encryptSteps (nr : Nat) : List Instr :=
  .addroundkey 0 .enc ::
    ((List.range' 1 (nr - 1)).flatMap encryptRoundSteps).append [.subbytes, .shiftrows, .addroundkey nr .enc]

/-- The step commands of interior round i of a decryption (R227). -/
def decryptRoundSteps (i : Nat) : List Instr := [.invsubbytes, .invshiftrows, .invmixcolumns, .addroundkey i .dec]

/-- The step commands that do what one DECRYPT with nr rounds does (R227). -/
def decryptSteps (nr : Nat) : List Instr :=
  .addroundkey 0 .dec ::
    ((List.range' 1 (nr - 1)).flatMap decryptRoundSteps).append [.invsubbytes, .invshiftrows, .addroundkey nr .dec]

/-- One hexadecimal digit. -/
def hexDigit (n : Nat) : Char := "0123456789abcdef".toList.getD n '0'

/-- `0x` and `len` hexadecimal digits (R17, R120). -/
def hexText (len n : Nat) : String :=
  "0x" ++ String.ofList ((List.range len).reverse.map fun k => hexDigit (n / 16 ^ k % 16))

/-- The name of a register in a host program (R120). A reserved offset has no name. -/
def Reg.name : Reg → String
  | .cmd => "CMD"
  | .status => "STATUS"
  | .gfres => "GFRES"
  | .state c => "STATE" ++ toString c.val
  | .key i => "KEY" ++ toString i.val
  | .erk j => "ERK" ++ toString j.val
  | .drk j => "DRK" ++ toString j.val
  | .reserved => ""

/-- A schedule in an ADDROUNDKEY line (R120). -/
def schedText : Sched → String
  | .enc => "enc"
  | .dec => "dec"

/-- A command line of a host program (R120). -/
def commandText : Instr → String
  | .nop => "NOP"
  | .keyexp klen => "KEYEXP " ++ toString klen
  | .encrypt => "ENCRYPT"
  | .decrypt => "DECRYPT"
  | .gfmul ga gb => "GFMUL " ++ hexText 2 ga.toNat ++ ", " ++ hexText 2 gb.toNat
  | .subbytes => "SUBBYTES"
  | .invsubbytes => "INVSUBBYTES"
  | .shiftrows => "SHIFTROWS"
  | .invshiftrows => "INVSHIFTROWS"
  | .mixcolumns => "MIXCOLUMNS"
  | .invmixcolumns => "INVMIXCOLUMNS"
  | .addroundkey rnd sch => "ADDROUNDKEY " ++ toString rnd ++ ", " ++ schedText sch

/-- An offset in a `RD` or `WR` line: its register's name, or the offset itself where the map gives no register. -/
def offsetText (off : BitVec 8) : String :=
  match regAt off with
  | .reserved => hexText 2 off.toNat
  | r => r.name

/-- A line of a host program (R120). The bus accesses of R73 are no lines of a host program and have no text. -/
def lineText : HostAction → Option String
  | .read off => some ("RD " ++ offsetText off)
  | .write off v => some ("WR " ++ offsetText off ++ ", " ++ hexText 8 v.toNat)
  | .reset => some "RESET"
  | .wait => some "WAIT"
  | .busRead _ _ => none
  | .busWrite _ _ _ => none

end Sys2Proof.Machine
end

