-- ==== Sys2Proof/Safety.lean ====
section
/-! DEFINITION. The words claims are stated in: the invariant of R53, idleness, runs, and the program discipline of R301. -/

namespace Sys2Proof.Machine

/-- Nothing is in flight (R47). -/
def State.Idle (s : State) : Prop := s.busy = false ∧ s.pending = none

/-- ERK and DRK hold the two schedules of some key of a legal length, and NR and NK are that length's (R35, R42, R45). -/
def SchedulesOfAKey (s : State) : Prop :=
  ∃ (key : Vector Word 8) (klen nk nr : Nat),
    keyParams klen = some (nk, nr) ∧
    s.nk = BitVec.ofNat 4 nk ∧ s.nr = BitVec.ofNat 4 nr ∧
    s.erk = scheduleBuf (encSchedule key nk nr) nr ∧
    s.drk = scheduleBuf (inverseSchedule (encSchedule key nk nr) nr) nr

/-- What holds in every reachable state (R53, R42, R47, R250). -/
structure CoreInv (s : State) : Prop where
  /-- R53 (a). -/
  noKey : s.kv = false →
    s.nr = 0 ∧ s.nk = 0 ∧ s.erk = Vector.replicate 60 0 ∧ s.drk = Vector.replicate 60 0
  /-- R53 (b), and what KV means (R42): it follows that the words past the live schedules are 0. -/
  keyed : s.kv = true → SchedulesOfAKey s
  /-- R53 (c). -/
  busyIff : s.busy = s.pending.isSome
  /-- R53 (d). -/
  noError : s.err = false → s.ecode = 0
  /-- A recorded error has one of the five codes (R250). -/
  errorCode : s.err = true → 1 ≤ s.ecode.toNat ∧ s.ecode.toNat ≤ 5
  /-- The in-flight word is the one in CMD, a legal command that passed the checks of acceptance (R41, R110). -/
  inFlight : ∀ w, s.pending = some w → s.cmd = w ∧ ∃ i, decode w = .ok i ∧ acceptError i s = none

/-- k steps from s, stopping at the first fault or refusal. -/
def runSteps (k : Nat) (s : State) : Host.Outcome State Fault Refusal := Host.Core.run Sys2Proof.core k s

/-- The registers of two states are the same: every field R30 lists, and none of the model's own. -/
def SameRegisters (s t : State) : Prop :=
  t.state = s.state ∧ t.key = s.key ∧ t.cmd = s.cmd ∧ t.busy = s.busy ∧ t.kv = s.kv ∧ t.err = s.err ∧
  t.ecode = s.ecode ∧ t.nr = s.nr ∧ t.nk = s.nk ∧ t.gfres = s.gfres ∧ t.erk = s.erk ∧ t.drk = s.drk ∧
  t.pending = s.pending

/-- The registers a command in flight reads or writes, and the command: every field R30 lists but the error record
ERR and ECODE. -/
def SameButErrorRecord (s t : State) : Prop :=
  t.state = s.state ∧ t.key = s.key ∧ t.cmd = s.cmd ∧ t.busy = s.busy ∧ t.kv = s.kv ∧ t.nr = s.nr ∧ t.nk = s.nk ∧
  t.gfres = s.gfres ∧ t.erk = s.erk ∧ t.drk = s.drk ∧ t.pending = s.pending

/-- The next step is the completion of command i (R112). -/
def CompletesNext (s : State) (i : Instr) : Prop :=
  ∃ w, s.pending = some w ∧ s.remaining = 0 ∧ decode w = .ok i

/-- The next step is this action of the host (R80). -/
def ActsNext (s : State) (a : HostAction) : Prop :=
  (s.pending = none ∨ s.remaining ≠ 0) ∧ s.host.head? = some a

/-- The next step is a host write of v to word offset off, by its offset or over a byte-addressed bus (R70, R75). -/
def WritesNext (s : State) (off : BitVec 8) (v : Word) : Prop :=
  ActsNext s (.write off v) ∨
  ∃ addr bytes, ActsNext s (.busWrite addr bytes v) ∧ busOffset addr bytes = .ok off

/-- An action that is a read of STATUS. -/
def readsStatus : HostAction → Bool
  | .read off => off == statusOffset
  | .write _ _ => false
  | .reset => false
  | .wait => false
  | .busRead _ _ => false
  | .busWrite _ _ _ => false

/-- R301's discipline: after a CMD write (`waiting`), no register access but a STATUS read until a WAIT. RESET is no
register access and ends the waiting with the command (R291). Bus accesses are no part of a host program (R120). -/
def disciplined : Bool → List HostAction → Bool
  | _, [] => true
  | _, .wait :: rest => disciplined false rest
  | _, .reset :: rest => disciplined false rest
  | _, .busRead _ _ :: _ => false
  | _, .busWrite _ _ _ :: _ => false
  | true, .read off :: rest => readsStatus (.read off) && disciplined true rest
  | true, .write _ _ :: _ => false
  | false, .read _ :: rest => disciplined false rest
  | false, .write off _ :: rest => disciplined (regAt off == .cmd) rest

end Sys2Proof.Machine
end

