-- ==== Sys2Proof/Certificates/Slice0/Obligations.lean ====
section
/-! DEFINITION. The statements about this model. Each says what the spec's rules say of the machine; the model's own choices
a statement rests on are named in its docstring by their log entry. Wherever a statement speaks of the fields remaining,
accepted, freeReads, host or observed, these are the model's own (log entries 1 to 3). -/

open Sys2Proof Sys2Proof.Machine

/-- The command words the spec writes out decode to their commands.
Each of the fifteen command words that R105 writes out decodes to the command it stands for, and the words with a
nonzero reserved or unused field that the spec gives as examples (R240, V-K10, V-A7, V-I11, V-I13) are rejected,
each by its reason. A sanity statement on fixed words.
From 30_encoding.md section 3 (R105). -/
def Obligations.SpecWordsDecode : Prop :=
  decode 0x00000000 = .ok .nop ∧ decode 0x00000002 = .ok .encrypt ∧ decode 0x00000003 = .ok .decrypt ∧
  decode 0x00000010 = .ok .subbytes ∧ decode 0x00000011 = .ok .invsubbytes ∧
  decode 0x00000012 = .ok .shiftrows ∧ decode 0x00000013 = .ok .invshiftrows ∧
  decode 0x00000014 = .ok .mixcolumns ∧ decode 0x00000015 = .ok .invmixcolumns ∧
  decode 0x00001001 = .ok (.keyexp 16) ∧ decode 0x00001801 = .ok (.keyexp 24) ∧
  decode 0x00002001 = .ok (.keyexp 32) ∧ decode 0x00835704 = .ok (.gfmul 0x57 0x83) ∧
  decode 0x00000116 = .ok (.addroundkey 1 .enc) ∧ decode 0x00010A16 = .ok (.addroundkey 10 .dec) ∧
  decode 0x01000000 = .error .reservedX ∧ decode 0x00011001 = .error .operandB ∧
  decode 0x00020016 = .error .operandB ∧ decode 0x00000005 = .error .unassignedOpcode ∧
  decode 0x00000100 = .error .operandA

/-- Every command encodes to the word R105 gives it.
The fixed-field commands encode to the nine words of R105; KEYEXP with KLEN = n encodes to n << 8 | 0x01
(0x00001001, 0x00001801, 0x00002001 for 16, 24, 32), GFMUL a, b to b << 16 | a << 8 | 0x04 (0x00835704 for 0x57,
0x83), ADDROUNDKEY r, enc to r << 8 | 0x16 and ADDROUNDKEY r, dec to 0x00010000 | r << 8 | 0x16 (0x00000116 for 1,
enc and 0x00010A16 for 10, dec), for every operand of 8 bits.
Rule R105. -/
def Obligations.SpecWordsEncode : Prop :=
  encode .nop = 0x00000000 ∧ encode .encrypt = 0x00000002 ∧ encode .decrypt = 0x00000003 ∧
  encode .subbytes = 0x00000010 ∧ encode .invsubbytes = 0x00000011 ∧
  encode .shiftrows = 0x00000012 ∧ encode .invshiftrows = 0x00000013 ∧
  encode .mixcolumns = 0x00000014 ∧ encode .invmixcolumns = 0x00000015 ∧
  encode (.keyexp 16) = 0x00001001 ∧ encode (.keyexp 24) = 0x00001801 ∧ encode (.keyexp 32) = 0x00002001 ∧
  encode (.gfmul 0x57 0x83) = 0x00835704 ∧
  encode (.addroundkey 1 .enc) = 0x00000116 ∧ encode (.addroundkey 10 .dec) = 0x00010A16 ∧
  (∀ n, n < 256 → encode (.keyexp n) = BitVec.ofNat 32 n <<< 8 ||| 0x01) ∧
  (∀ a b : Byte, encode (.gfmul a b) = b.setWidth 32 <<< 16 ||| a.setWidth 32 <<< 8 ||| 0x04) ∧
  (∀ r, r < 256 → encode (.addroundkey r .enc) = BitVec.ofNat 32 r <<< 8 ||| 0x16) ∧
  (∀ r, r < 256 → encode (.addroundkey r .dec) = 0x00010000 ||| BitVec.ofNat 32 r <<< 8 ||| 0x16)

/-- Decoding the encoding of a well-formed command gives it back.
For every well-formed command i, with every operand at every value its 8-bit field admits, decode (encode i) is i:
no operand bit is dropped and no two commands share a word.
From 30_encoding.md sections 1 to 3 (R100, R102, R104, R105). -/
def Obligations.DecodeOfEncodeIsTheCommand : Prop :=
  ∀ i : Instr, i.wellFormed = true → decode (encode i) = .ok i

/-- A word that decodes is the encoding of its command.
Whenever a word w decodes to a command i, i is well formed and encode i is w: every legal word has one meaning and
every bit of it matters.
From 30_encoding.md sections 1, 3 and 4 (R100, R104, R106). -/
def Obligations.EncodeOfDecodeIsTheWord : Prop :=
  ∀ (w : Word) (i : Instr), decode w = .ok i → i.wellFormed = true ∧ encode i = w

/-- The decoder accepts exactly the words that R106 calls legal.
For every word w, decode answers a command if and only if X = 0 and the fields meet the condition R106 lists for OP:
A = 0 and B = 0 for 0x00, 0x02, 0x03, 0x10..0x15; B = 0 for 0x01; nothing for 0x04; B[7:1] = 0 for 0x16; no other
OP.
From 30_encoding.md section 4 (R106). -/
def Obligations.DecoderAcceptsExactlyTheLegalWords : Prop :=
  ∀ w : Word, (∃ i, decode w = .ok i) ↔
    (w.extractLsb' 24 8 = 0#8 ∧
      (((w.extractLsb' 0 8).toNat ∈ [0x00, 0x02, 0x03, 0x10, 0x11, 0x12, 0x13, 0x14, 0x15] ∧
          w.extractLsb' 8 8 = 0#8 ∧ w.extractLsb' 16 8 = 0#8) ∨
        ((w.extractLsb' 0 8).toNat = 0x01 ∧ w.extractLsb' 16 8 = 0#8) ∨
        (w.extractLsb' 0 8).toNat = 0x04 ∨
        ((w.extractLsb' 0 8).toNat = 0x16 ∧ w.extractLsb' 17 7 = 0#7)))

/-- A step runs the decoded command.
When the core is idle and the host's next action writes word w to CMD, and w decodes to i, the step is exec i on the
state with that action taken and w stored in CMD. When w is in flight, its window is over (remaining = 0) and w
decodes to i, the step is exec i on the state as it is. How the window is counted is the model's choice (log entry
1).
From 30_encoding.md section 5 (R110, R112); 20_memory.md sections 2 and 4 (R75, R80). -/
def Obligations.StepRunsTheDecodedCommand : Prop :=
  ∀ (s : State) (w : Word) (i : Instr), decode w = .ok i →
    (∀ rest, s.busy = false → s.pending = none → s.host = .write 0x00 w :: rest →
      step s = exec i { s with host := rest, cmd := w }) ∧
    (s.pending = some w → s.remaining = 0 → step s = exec i s)

/-- The step after withFetchWord issues the row's command.
For every state and every 32-bit number w that decodes to a command i, the next step of s.withFetchWord 32 w is exec
i on s with nothing in flight and w in CMD. withFetchWord is the model's own (log entry 5).
From 10_state.md section 7 (R50); 30_encoding.md section 5 (R110). -/
def Obligations.FetchWordStepIssuesTheRow : Prop :=
  ∀ (s : State) (w : Nat) (i : Instr), w < 2 ^ 32 → decodeTableWord 32 w = some i →
    step (s.withFetchWord 32 w) = exec i { s with pending := none, busy := false, cmd := BitVec.ofNat 32 w }

/-- The completion step performs the command, makes the core idle and raises nothing.
When a legal word w is in flight and its window is over, the step answers the next state that exec of the command w
stands for answers there: the command's whole effect (what it is for each command is said in the completion
statements), with PENDING none and BUSY 0, and ERR, ECODE, CMD, KEY, the host's actions and what it has read as
before: Execute never raises an error. That the time of the completion is a window of host steps (the field
remaining) is the model's choice (log entry 1).
From 30_encoding.md section 5 (R112); 60_exceptions.md section 1 (R257). -/
def Obligations.CompletionIsOneAtomicStep : Prop :=
  ∀ (s : State) (w : Word) (i : Instr), s.pending = some w → s.remaining = 0 → decode w = .ok i →
    ∃ t, step s = .next t ∧ exec i s = .next t ∧ t.pending = none ∧ t.busy = false ∧ t.err = s.err ∧ t.ecode = s.ecode ∧
      t.cmd = s.cmd ∧ t.key = s.key ∧ t.host = s.host ∧ t.observed = s.observed

/-- A CMD write while idle is accepted or refused by the checks of R110, in their order.
A host write of any word w to CMD while the core is idle stores w in CMD and, in the same step, makes the four
checks of Accept in order: not legal records ILLEGAL_COMMAND (3), KEYEXP of another length than 16, 24 or 32 records
INVALID_KEY_SIZE (1), ENCRYPT, DECRYPT or ADDROUNDKEY with KV = 0 records NO_KEY (2), ADDROUNDKEY with A > NR
records ROUND_OUT_OF_RANGE (4), each by the recording of R258 and with nothing else changed; otherwise PENDING is w
and BUSY is 1. The window and the count of accepted commands are the model's own (log entry 1).
Rule R110. -/
def Obligations.AcceptanceChecksInOrder : Prop :=
  ∀ (s : State) (w : Word), s.busy = false → s.pending = none →
    (legal w = false →
      hostWrite 0x00 w s = .next { s with cmd := w, err := true, ecode := if s.err then s.ecode else 3 }) ∧
    (legal w = true →
      (w.extractLsb' 0 8 = 0x01#8 ∧ (w.extractLsb' 8 8).toNat ∉ [16, 24, 32] →
        hostWrite 0x00 w s = .next { s with cmd := w, err := true, ecode := if s.err then s.ecode else 1 }) ∧
      (¬ (w.extractLsb' 0 8 = 0x01#8 ∧ (w.extractLsb' 8 8).toNat ∉ [16, 24, 32]) →
        ((w.extractLsb' 0 8).toNat ∈ [0x02, 0x03, 0x16] ∧ s.kv = false →
          hostWrite 0x00 w s = .next { s with cmd := w, err := true, ecode := if s.err then s.ecode else 2 }) ∧
        (¬ ((w.extractLsb' 0 8).toNat ∈ [0x02, 0x03, 0x16] ∧ s.kv = false) →
          (w.extractLsb' 0 8 = 0x16#8 ∧ s.nr.toNat < (w.extractLsb' 8 8).toNat →
            hostWrite 0x00 w s = .next { s with cmd := w, err := true, ecode := if s.err then s.ecode else 4 }) ∧
          (¬ (w.extractLsb' 0 8 = 0x16#8 ∧ s.nr.toNat < (w.extractLsb' 8 8).toNat) →
            ∃ n, hostWrite 0x00 w s =
              .next { s with cmd := w, pending := some w, busy := true, remaining := n,
                             accepted := s.accepted + 1 }))))

/-- Every command that passes acceptance goes into flight, and nothing else changes.
For every command i and every state with nothing in flight, when the conditions that the spec sets on i hold
(KEYEXP: 16, 24 or 32 bytes; ENCRYPT, DECRYPT: KV = 1; ADDROUNDKEY: KV = 1 and RND <= NR; the others: none), exec i
answers the state with PENDING the command's word and BUSY 1, and every other register as before. This is
acceptance, not completion. The window (remaining) and the count of accepted commands it sets are the model's own
(log entry 1).
From 30_encoding.md sections 4 and 5 (R107, R110). -/
def Obligations.AcceptedCommandGoesIntoFlight : Prop :=
  ∀ (i : Instr) (s : State), s.pending = none →
    (∀ klen, i = .keyexp klen → klen = 16 ∨ klen = 24 ∨ klen = 32) →
    (i = .encrypt ∨ i = .decrypt → s.kv = true) →
    (∀ rnd sch, i = .addroundkey rnd sch → s.kv = true ∧ rnd ≤ s.nr.toNat) →
    ∃ n, exec i s =
      .next { s with pending := some (encode i), busy := true, remaining := n, accepted := s.accepted + 1 }

/-- Recording an error sets ERR and keeps the first ECODE.
For every error and every state: ERR becomes 1, ECODE becomes the error's code if ERR was 0 and stays as it was if
ERR was 1, and nothing else changes, PENDING and BUSY among it. The codes are 1 to 5 in the order INVALID_KEY_SIZE,
NO_KEY, ILLEGAL_COMMAND, ROUND_OUT_OF_RANGE, WRITE_WHILE_BUSY.
Rule R258. -/
def Obligations.ErrorRecordKeepsTheFirst : Prop :=
  (∀ (e : CmdError) (s : State),
    (s.err = false → raiseError e s = { s with ecode := e.code, err := true }) ∧
    (s.err = true → raiseError e s = s)) ∧
  CmdError.invalidKeySize.code = 1 ∧ CmdError.noKey.code = 2 ∧ CmdError.illegalCommand.code = 3 ∧
  CmdError.roundOutOfRange.code = 4 ∧ CmdError.writeWhileBusy.code = 5

/-- KEYEXP of a length other than 16, 24 or 32 records INVALID_KEY_SIZE and is not executed.
With nothing in flight, KEYEXP of every length but 16, 24 and 32 (0, 15, 17, 33 and the word counts 4, 6, 8 among
them) answers the state with ERR 1, ECODE 1 if no error was recorded before, and every other register as before.
Rule R251. -/
def Obligations.WrongKeyLengthIsRefused : Prop :=
  ∀ (s : State) (klen : Nat), s.pending = none → klen ≠ 16 → klen ≠ 24 → klen ≠ 32 →
    exec (.keyexp klen) s = .next { s with err := true, ecode := if s.err then s.ecode else 1 }

/-- ENCRYPT, DECRYPT and ADDROUNDKEY without a key record NO_KEY and are not executed.
With nothing in flight and KV = 0, ENCRYPT, DECRYPT and every ADDROUNDKEY (any round index, either schedule) answer
the state with ERR 1, ECODE 2 if no error was recorded before, and every other register, STATE among them, as
before.
From 60_exceptions.md section 1 (R252). -/
def Obligations.NoKeyIsRefused : Prop :=
  ∀ (s : State) (i : Instr), s.pending = none → s.kv = false →
    (i = .encrypt ∨ i = .decrypt ∨ ∃ rnd sch, i = .addroundkey rnd sch) →
    exec i s = .next { s with err := true, ecode := if s.err then s.ecode else 2 }

/-- ADDROUNDKEY past the last round records ROUND_OUT_OF_RANGE; RND = NR is in range.
With nothing in flight and KV = 1, ADDROUNDKEY with RND > NR answers the state with ERR 1, ECODE 4 if no error was
recorded before, and every other register as before; with RND = NR it goes into flight.
Rule R254. -/
def Obligations.RoundOutOfRangeIsRefused : Prop :=
  ∀ (s : State) (rnd : Nat) (sch : Sched), s.pending = none → s.kv = true →
    (s.nr.toNat < rnd →
      exec (.addroundkey rnd sch) s = .next { s with err := true, ecode := if s.err then s.ecode else 4 }) ∧
    (rnd = s.nr.toNat →
      ∃ t, exec (.addroundkey rnd sch) s = .next t ∧ t.busy = true ∧ t.pending = some (encode (.addroundkey rnd sch)))

/-- Six step commands are accepted with or without a key; ADDROUNDKEY needs one.
With nothing in flight, SUBBYTES, INVSUBBYTES, SHIFTROWS, INVSHIFTROWS, MIXCOLUMNS and INVMIXCOLUMNS go into flight
whatever KV is, and ADDROUNDKEY goes into flight only if KV = 1.
Rule R212. -/
def Obligations.StepCommandsNeedNoKey : Prop :=
  (∀ (s : State) (i : Instr), s.pending = none →
    i ∈ [.subbytes, .invsubbytes, .shiftrows, .invshiftrows, .mixcolumns, .invmixcolumns] →
    ∃ t, exec i s = .next t ∧ t.busy = true ∧ t.pending = some (encode i)) ∧
  (∀ (s t : State) (rnd : Nat) (sch : Sched), s.pending = none → exec (.addroundkey rnd sch) s = .next t →
    t.pending ≠ none → s.kv = true)

/-- ERR blocks neither acceptance nor execution.
For every state and every value of ERR: the same CMD write to an idle core is accepted with that value of ERR if and
only if it is accepted with the other, and an in-flight command completes with the same registers but ERR whichever
value ERR has.
Rule R111. -/
def Obligations.ErrorDoesNotBlockCommands : Prop :=
  (∀ (s t u : State) (w : Word) (b : Bool), s.busy = false → s.pending = none →
    hostWrite 0x00 w s = .next t → hostWrite 0x00 w { s with err := b } = .next u →
    t.busy = u.busy ∧ t.pending = u.pending) ∧
  (∀ (s : State) (w : Word) (i : Instr) (b : Bool), s.pending = some w →
    ∃ t, exec i s = .next t ∧ exec i { s with err := b } = .next { t with err := b })

/-- The word a read of STATUS gives has the fields of R42 at their bits.
For every state the STATUS word has BUSY in bit 0, KV in bit 1, ERR in bit 2, 0 in bit 3, ECODE in bits 7..4, NR in
bits 11..8, NK in bits 15..12 and 0 in bits 31..16.
From 10_state.md section 4 (R42); 20_memory.md section 2 (R74). -/
def Obligations.StatusWordHasItsFields : Prop :=
  ∀ s : State, s.statusWord.getLsbD 0 = s.busy ∧ s.statusWord.getLsbD 1 = s.kv ∧ s.statusWord.getLsbD 2 = s.err ∧
    s.statusWord.getLsbD 3 = false ∧ s.statusWord.extractLsb' 4 4 = s.ecode ∧ s.statusWord.extractLsb' 8 4 = s.nr ∧
    s.statusWord.extractLsb' 12 4 = s.nk ∧ s.statusWord.extractLsb' 16 16 = 0

/-- A read of an idle core returns the register at the offset and changes nothing.
When the core is idle and the host's next action reads offset off, the step answers the state with that action taken
and one value added to what the host has read, and the value is CMD at 0x00, the STATUS word at 0x01, GFRES zero-
extended at 0x02, STATE[c] at 0x04 + c, KEY[i] at 0x08 + i, ERK[j] at 0x40 + j, DRK[j] at 0x80 + j, and 0 at every
other offset.
From 20_memory.md sections 1 and 2 (R71, R74, R77). -/
def Obligations.IdleReadsGiveTheRegisters : Prop :=
  ∀ (s : State) (off : BitVec 8) (rest : List HostAction),
    s.busy = false → s.pending = none → s.host = .read off :: rest →
    ∃ v : Word, step s = .next { s with host := rest, observed := ⟨off, v⟩ :: s.observed } ∧
      (off.toNat = 0x00 → v = s.cmd) ∧
      (off.toNat = 0x01 → v = s.statusWord) ∧
      (off.toNat = 0x02 → v.extractLsb' 0 8 = s.gfres ∧ v.extractLsb' 8 24 = 0) ∧
      (∀ c : Fin 4, off.toNat = 0x04 + c.val → v = s.state.get c) ∧
      (∀ i : Fin 8, off.toNat = 0x08 + i.val → v = s.key.get i) ∧
      (∀ j : Fin 60, off.toNat = 0x40 + j.val → v = s.erk.get j) ∧
      (∀ j : Fin 60, off.toNat = 0x80 + j.val → v = s.drk.get j) ∧
      (off.toNat = 0x03 ∨ (0x10 ≤ off.toNat ∧ off.toNat < 0x40) ∨ (0x7C ≤ off.toNat ∧ off.toNat < 0x80) ∨
        0xBC ≤ off.toNat → v = 0)

/-- A read while busy is a free word for STATE, GFRES, ERK and DRK, and exact otherwise.
When a command is in flight and the host's next action reads offset off, the step changes no register. If off is in
0x02, 0x04..0x07, 0x40..0x7B or 0x80..0xBB the host reads a fresh draw of the free word; at every other offset it
reads CMD, the STATUS word, KEY[i] or 0 exactly. The form of the draw (log entry 2) and of the window, one step
shorter after the read (log entry 1), is the model's choice.
From 20_memory.md section 3 (R79). -/
def Obligations.BusyReadsAreFreeOrExact : Prop :=
  ∀ (s : State) (off : BitVec 8) (rest : List HostAction) (w : Word) (n : Nat),
    s.busy = true → s.pending = some w → s.remaining = n + 1 → s.host = .read off :: rest →
    ((off.toNat = 0x02 ∨ (0x04 ≤ off.toNat ∧ off.toNat ≤ 0x07) ∨ (0x40 ≤ off.toNat ∧ off.toNat ≤ 0x7B) ∨
        (0x80 ≤ off.toNat ∧ off.toNat ≤ 0xBB)) →
      step s = .next { s with remaining := n, host := rest, freeReads := s.freeReads + 1,
                              observed := ⟨off, Config.freeRead s.freeReads off s.snapshot⟩ :: s.observed }) ∧
    (¬ (off.toNat = 0x02 ∨ (0x04 ≤ off.toNat ∧ off.toNat ≤ 0x07) ∨ (0x40 ≤ off.toNat ∧ off.toNat ≤ 0x7B) ∨
        (0x80 ≤ off.toNat ∧ off.toNat ≤ 0xBB)) →
      ∃ v, step s = .next { s with remaining := n, host := rest, observed := ⟨off, v⟩ :: s.observed } ∧
        (off.toNat = 0x00 → v = s.cmd) ∧ (off.toNat = 0x01 → v = s.statusWord) ∧
        (∀ i : Fin 8, off.toNat = 0x08 + i.val → v = s.key.get i) ∧
        (off.toNat = 0x03 ∨ (0x10 ≤ off.toNat ∧ off.toNat < 0x40) ∨ (0x7C ≤ off.toNat ∧ off.toNat < 0x80) ∨
          0xBC ≤ off.toNat → v = 0))

/-- A write to an idle core goes to the register at the offset; read-only and reserved offsets ignore it.
When the core is idle and the host's next action writes v to offset off: STATE[c] at 0x04 + c and KEY[i] at 0x08 + i
become v and every other word and register stays; a write to GFRES, ERK, DRK or a reserved offset changes nothing
and records no error. (CMD and STATUS have statements of their own.)
From 20_memory.md sections 1 and 2 (R71, R75). -/
def Obligations.IdleWritesGoToTheRegisters : Prop :=
  ∀ (s : State) (off : BitVec 8) (v : Word) (rest : List HostAction),
    s.busy = false → s.pending = none → s.host = .write off v :: rest →
    (∀ c : Fin 4, off.toNat = 0x04 + c.val → ∃ b : Block,
      step s = .next { s with host := rest, state := b } ∧ b.get c = v ∧ ∀ d : Fin 4, d ≠ c → b.get d = s.state.get d) ∧
    (∀ i : Fin 8, off.toNat = 0x08 + i.val → ∃ k : Vector Word 8,
      step s = .next { s with host := rest, key := k } ∧ k.get i = v ∧ ∀ j : Fin 8, j ≠ i → k.get j = s.key.get j) ∧
    (off.toNat = 0x02 ∨ off.toNat = 0x03 ∨ 0x10 ≤ off.toNat → step s = .next { s with host := rest })

/-- A write to STATUS clears the error record exactly if its bit 2 is 1 and the core is idle.
While BUSY = 0 a host write of v to STATUS clears ERR and ECODE if v[2] = 1 and changes nothing if v[2] = 0,
whatever the other bits of v; while BUSY = 1 it is dropped and recorded as WRITE_WHILE_BUSY like every write.
Rule R43. -/
def Obligations.StatusWriteClearsTheRecord : Prop :=
  ∀ (s : State) (v : Word),
    (s.busy = false → v.getLsbD 2 = true → hostWrite 0x01 v s = .next { s with err := false, ecode := 0 }) ∧
    (s.busy = false → v.getLsbD 2 = false → hostWrite 0x01 v s = .next s) ∧
    (s.busy = true → hostWrite 0x01 v s = .next { s with err := true, ecode := if s.err then s.ecode else 5 })

/-- A write while busy is dropped, recorded, and does not touch the command in flight.
When a command is in flight and the host's next action writes any v to any offset (CMD and STATUS with bit 2 set
among them), the step records WRITE_WHILE_BUSY (ECODE 5 if no error was recorded before) and changes no other
register; and the command in flight completes afterwards with the same registers, but for the error record, as
without the write.
Rule R78, R256. -/
def Obligations.WriteWhileBusyIsDropped : Prop :=
  ∀ (s : State) (off : BitVec 8) (v w : Word) (rest : List HostAction) (n : Nat),
    s.busy = true → s.pending = some w → s.remaining = n + 1 → s.host = .write off v :: rest →
    step s = .next { s with remaining := n, host := rest, err := true, ecode := if s.err then s.ecode else 5 } ∧
    ∀ i : Instr, ∃ t u, exec i s = .next t ∧
      exec i { s with remaining := n, host := rest, err := true, ecode := if s.err then s.ecode else 5 } = .next u ∧
      SameButErrorRecord t u

/-- A byte-addressed access is the word access at its offset, or is refused.
A bus access of 4 bytes at REG_BASE + 4 * off is the word access at offset off, read or write; a bus access of
another width, or at a byte address that is not a multiple of 4, is refused and takes no step. That REG_BASE is a
multiple of 4 is the model's reading (log entry 4).
From 20_memory.md sections 1 and 2 (R70, R73). -/
def Obligations.BusAccessesAreWordsOrRefused : Prop :=
  (∀ (s : State) (off : BitVec 8) (v : Word),
    hostAction (.busRead (Config.regBase + 4 * off.toNat) 4) s = hostAction (.read off) s ∧
    hostAction (.busWrite (Config.regBase + 4 * off.toNat) 4 v) s = hostAction (.write off v) s) ∧
  (∀ (s : State) (addr bytes : Nat) (v : Word), bytes ≠ 4 ∨ addr % 4 ≠ 0 →
    (∃ r, hostAction (.busRead addr bytes) s = .refused r) ∧ (∃ r, hostAction (.busWrite addr bytes v) s = .refused r))

/-- Reset puts every register to its reset value in one step, a command in flight discarded.
From every state, whatever is in flight and however the registers stand, the host action RESET answers a state in
which STATE, KEY, ERK and DRK are all zeros, CMD and GFRES are 0, BUSY, KV, ERR, ECODE, NR and NK are 0 and PENDING
is none. (The tables are constants of the model and no state; the host's actions and the model's counters stay, log
entry 3.)
Rule R291. -/
def Obligations.ResetPutsEveryRegisterToItsResetValue : Prop :=
  ∀ (s : State) (rest : List HostAction), s.host = .reset :: rest → (s.pending = none ∨ s.remaining ≠ 0) →
    ∃ t, step s = .next t ∧ t.host = rest ∧ t.observed = s.observed ∧
      (∀ c : Fin 4, t.state.get c = 0) ∧ (∀ i : Fin 8, t.key.get i = 0) ∧
      (∀ j : Fin 60, t.erk.get j = 0 ∧ t.drk.get j = 0) ∧ t.cmd = 0 ∧ t.gfres = 0 ∧
      t.busy = false ∧ t.kv = false ∧ t.err = false ∧ t.ecode = 0 ∧ t.nr = 0 ∧ t.nk = 0 ∧ t.pending = none

/-- The state after reset has the reset values of R54.
In State.reset every word of STATE, KEY, ERK and DRK is 0, CMD, GFRES, ECODE, NR and NK are 0, BUSY, KV and ERR are
0 and PENDING is none.
From 10_state.md section 9 (R54). -/
def Obligations.ResetStateHasTheResetValues : Prop :=
  (∀ c : Fin 4, State.reset.state.get c = 0) ∧ (∀ i : Fin 8, State.reset.key.get i = 0) ∧
  (∀ j : Fin 60, State.reset.erk.get j = 0 ∧ State.reset.drk.get j = 0) ∧
  State.reset.cmd = 0 ∧ State.reset.gfres = 0 ∧ State.reset.busy = false ∧ State.reset.kv = false ∧
  State.reset.err = false ∧ State.reset.ecode = 0 ∧ State.reset.nr = 0 ∧ State.reset.nk = 0 ∧
  State.reset.pending = none

/-- NOP completes and changes nothing but BUSY and PENDING.
With NOP in flight, exec answers the state with PENDING none and BUSY 0, and every other register as before.
From 46_control.md (R240). -/
def Obligations.NopCompletes : Prop :=
  ∀ s : State, s.pending = some (encode .nop) →
    exec .nop s = .next { s with pending := none, busy := false, remaining := 0 }

/-- GFMUL completes with the product in GFRES and changes nothing else.
With GFMUL ga, gb in flight, exec answers the state with GFRES the accumulator after eight iterations of the
multiplier from p = 0, a = ga, b = gb, PENDING none and BUSY 0, and every other register as before; for 0x57 and
0x83 GFRES is 0xc1.
From 41_gf_multiply.md section 2 (R135). -/
def Obligations.GfmulCompletes : Prop :=
  (∀ (s : State) (ga gb : Byte), s.pending = some (encode (.gfmul ga gb)) →
    exec (.gfmul ga gb) s =
      .next { s with gfres := (gfIterate 8 ⟨0, ga, gb⟩).p, pending := none, busy := false, remaining := 0 }) ∧
  (gfIterate 8 ⟨0, 0x57, 0x83⟩).p = 0xc1

/-- SUBBYTES and INVSUBBYTES complete with every state byte substituted and nothing else changed.
With SUBBYTES (INVSUBBYTES) in flight, exec answers the state whose STATE byte at every row and column is SBOX
(INV_SBOX) of the byte there before, with PENDING none and BUSY 0, and every other register as before.
From 44_round_steps.md section 1 (R190, R193). -/
def Obligations.SubstitutionCommandsComplete : Prop :=
  (∀ s : State, s.pending = some (encode .subbytes) → ∃ b : Block,
    exec .subbytes s = .next { s with state := b, pending := none, busy := false, remaining := 0 } ∧
    ∀ r c : Fin 4, b.byteAt r c = sbox (s.state.byteAt r c)) ∧
  (∀ s : State, s.pending = some (encode .invsubbytes) → ∃ b : Block,
    exec .invsubbytes s = .next { s with state := b, pending := none, busy := false, remaining := 0 } ∧
    ∀ r c : Fin 4, b.byteAt r c = invSbox (s.state.byteAt r c))

/-- SHIFTROWS and INVSHIFTROWS complete with the bytes permuted by P and Q and nothing else changed.
With SHIFTROWS (INVSHIFTROWS) in flight, exec answers the state in which row r is rotated left (right) by r, that is
output block byte n is input byte P[n] (Q[n]) with the permutations of R195 and R197, with PENDING none and BUSY 0,
and every other register as before.
From 44_round_steps.md section 2 (R195, R196, R197, R199). -/
def Obligations.RowRotationCommandsComplete : Prop :=
  (∀ s : State, s.pending = some (encode .shiftrows) → ∃ b : Block,
    exec .shiftrows s = .next { s with state := b, pending := none, busy := false, remaining := 0 } ∧
    (∀ r c d : Fin 4, d.val = (c.val + r.val) % 4 → b.byteAt r c = s.state.byteAt r d) ∧
    ∀ n m : Fin 16, [0, 5, 10, 15, 4, 9, 14, 3, 8, 13, 2, 7, 12, 1, 6, 11][n.val]? = some m.val →
      b.byteN n = s.state.byteN m) ∧
  (∀ s : State, s.pending = some (encode .invshiftrows) → ∃ b : Block,
    exec .invshiftrows s = .next { s with state := b, pending := none, busy := false, remaining := 0 } ∧
    (∀ r c d : Fin 4, c.val = (d.val + r.val) % 4 → b.byteAt r c = s.state.byteAt r d) ∧
    ∀ n m : Fin 16, [0, 13, 10, 7, 4, 1, 14, 11, 8, 5, 2, 15, 12, 9, 6, 3][n.val]? = some m.val →
      b.byteN n = s.state.byteN m)

/-- MIXCOLUMNS and INVMIXCOLUMNS complete with every column multiplied by its matrix and nothing else changed.
With MIXCOLUMNS (INVMIXCOLUMNS) in flight, exec answers the state in which each column is the product of the
circulant matrix with first row 2 3 1 1 (14 11 13 9) and the column before, in GF(2^8), with PENDING none and BUSY
0, and every other register as before.
From 44_round_steps.md section 3 (R201, R202, R204, R205). -/
def Obligations.ColumnMixCommandsComplete : Prop :=
  (∀ s : State, s.pending = some (encode .mixcolumns) → ∃ b : Block,
    exec .mixcolumns s = .next { s with state := b, pending := none, busy := false, remaining := 0 } ∧
    ∀ r c : Fin 4, b.byteAt r c =
      gfmul 0x02 (s.state.byteAt r c) ^^^ gfmul 0x03 (s.state.byteAt (r + 1) c) ^^^
      s.state.byteAt (r + 2) c ^^^ s.state.byteAt (r + 3) c) ∧
  (∀ s : State, s.pending = some (encode .invmixcolumns) → ∃ b : Block,
    exec .invmixcolumns s = .next { s with state := b, pending := none, busy := false, remaining := 0 } ∧
    ∀ r c : Fin 4, b.byteAt r c =
      gfmul 0x0e (s.state.byteAt r c) ^^^ gfmul 0x0b (s.state.byteAt (r + 1) c) ^^^
      gfmul 0x0d (s.state.byteAt (r + 2) c) ^^^ gfmul 0x09 (s.state.byteAt (r + 3) c))

/-- ADDROUNDKEY completes with the chosen round key XORed into STATE and nothing else changed.
With ADDROUNDKEY rnd, sch in flight, exec answers the state in which STATE[c] is XORed with word 4*rnd + c of ERK
(sch = enc) or of DRK (sch = dec), for every rnd whose words lie in the buffer, with PENDING none and BUSY 0, and
every other register as before.
From 44_round_steps.md section 4 (R207, R208). -/
def Obligations.AddRoundKeyCompletes : Prop :=
  ∀ (s : State) (rnd : Nat) (sch : Sched), s.pending = some (encode (.addroundkey rnd sch)) → ∃ b : Block,
    exec (.addroundkey rnd sch) s = .next { s with state := b, pending := none, busy := false, remaining := 0 } ∧
    ∀ (c : Fin 4) (j : Fin 60), j.val = 4 * rnd + c.val →
      (sch = .enc → b.get c = s.state.get c ^^^ s.erk.get j) ∧
      (sch = .dec → b.get c = s.state.get c ^^^ s.drk.get j)

/-- KEYEXP completes with both schedules, NR, NK and KV, and changes nothing else.
With KEYEXP of 16, 24 or 32 bytes in flight, exec answers the state in which ERK[0..Nk-1] are KEY[0..Nk-1], every
later live ERK word obeys the recurrence of R172, DRK is ERK in reversed round order with InvMixColumn on the
interior rounds (R176), the words past 4(Nr+1) are 0 in both buffers, NR and NK are the length's, KV is 1, PENDING
none and BUSY 0, and every other register as before.
From 43_key_schedule.md sections 2 to 4 (R172, R174, R176, R177); 10_state.md section 3 (R36, R37). -/
def Obligations.KeyexpCompletes : Prop :=
  ∀ (s : State) (klen nk nr : Nat), (klen, nk, nr) ∈ [(16, 4, 10), (24, 6, 12), (32, 8, 14)] →
    s.pending = some (encode (.keyexp klen)) → ∃ e d : ScheduleBuf,
    exec (.keyexp klen) s =
      .next { s with erk := e, drk := d, nr := BitVec.ofNat 4 nr, nk := BitVec.ofNat 4 nk, kv := true,
                     pending := none, busy := false, remaining := 0 } ∧
    (∀ i, i < nk → e.getD i 0 = s.key.getD i 0) ∧
    (∀ i, nk ≤ i → i < 4 * (nr + 1) → e.getD i 0 = e.getD (i - nk) 0 ^^^
      (if i % nk = 0 then
        subWord (rotWord (e.getD (i - 1) 0)) ^^^ ((rcon (i / nk - 1)).setWidth 32 <<< 24)
      else if 6 < nk ∧ i % nk = 4 then subWord (e.getD (i - 1) 0)
      else e.getD (i - 1) 0)) ∧
    (∀ i c, i ≤ nr → c < 4 → d.getD (4 * i + c) 0 =
      if 0 < i ∧ i < nr then invMixColumn (e.getD (4 * (nr - i) + c) 0) else e.getD (4 * (nr - i) + c) 0) ∧
    (∀ j, 4 * (nr + 1) ≤ j → j < 60 → e.getD j 0 = 0 ∧ d.getD j 0 = 0)

/-- ENCRYPT completes with the block taken through the rounds of Cipher and changes nothing else.
With ENCRYPT in flight, there is a sequence of blocks that starts with STATE XOR round key 0 and goes on, for rounds
1 to NR-1, by SubBytes, ShiftRows, MixColumns and AddRoundKey with that round's ERK key; exec answers the state
whose STATE is SubBytes, ShiftRows and AddRoundKey with round key NR of the last block of the sequence, with PENDING
none and BUSY 0, and every other register as before.
From 45_block_transform.md sections 1 and 3 (R220, R221, R229). -/
def Obligations.EncryptCompletes : Prop :=
  ∀ s : State, s.pending = some (encode .encrypt) → ∃ f : Nat → Block,
    f 0 = addRoundKey s.state s.erk 0 ∧
    (∀ i, 1 ≤ i → i < s.nr.toNat →
      f i = addRoundKey (mixColumns (shiftRows (subBytes (f (i - 1))))) s.erk i) ∧
    exec .encrypt s =
      .next { s with state := addRoundKey (shiftRows (subBytes (f (s.nr.toNat - 1)))) s.erk s.nr.toNat,
                     pending := none, busy := false, remaining := 0 }

/-- DECRYPT completes with the block taken through the rounds of EqInvCipher and changes nothing else.
With DECRYPT in flight, there is a sequence of blocks that starts with STATE XOR DRK round key 0 and goes on, for
rounds 1 to NR-1, by InvSubBytes, InvShiftRows, InvMixColumns and AddRoundKey with that round's DRK key; exec
answers the state whose STATE is InvSubBytes, InvShiftRows and AddRoundKey with DRK round key NR of the last block
of the sequence, with PENDING none and BUSY 0, and every other register as before.
From 45_block_transform.md sections 2 and 3 (R224, R229). -/
def Obligations.DecryptCompletes : Prop :=
  ∀ s : State, s.pending = some (encode .decrypt) → ∃ f : Nat → Block,
    f 0 = addRoundKey s.state s.drk 0 ∧
    (∀ i, 1 ≤ i → i < s.nr.toNat →
      f i = addRoundKey (invMixColumns (invShiftRows (invSubBytes (f (i - 1))))) s.drk i) ∧
    exec .decrypt s =
      .next { s with state := addRoundKey (invShiftRows (invSubBytes (f (s.nr.toNat - 1)))) s.drk s.nr.toNat,
                     pending := none, busy := false, remaining := 0 }

/-- The state after reset meets the invariant.
CoreInv holds at State.reset: no key and empty schedules, nothing in flight, no error recorded.
From 10_state.md section 8 (R53); 70_reset_and_hazards.md section 1 (R292). -/
def Obligations.ResetStateMeetsTheInvariant : Prop :=
  CoreInv State.reset

/-- Every step keeps the invariant.
For every state that meets CoreInv and every step from it to a next state, whatever the host does and whenever the
engine completes, the next state meets CoreInv: KV = 0 means NR, NK and both schedules are 0; KV = 1 means ERK and
DRK are the two schedules of some key of the length NR and NK name; BUSY is 1 exactly when PENDING is not none; ERR
= 0 means ECODE = 0 and ERR = 1 means ECODE is 1 to 5; the word in flight is the one in CMD and a command that
passed the checks of acceptance.
From 10_state.md section 8 (R53); 10_state.md sections 4 and 6 (R42, R45, R47); 30_encoding.md section 5 (R110, R112). -/
def Obligations.EveryStepKeepsTheInvariant : Prop :=
  ∀ s t : State, CoreInv s → step s = .next t → CoreInv t

/-- Every state that any host can bring the machine to from reset meets the clauses of R53.
For every list of host actions and every number of steps from reset with that host: KV = 0 implies NR = 0, NK = 0
and all of ERK and DRK 0; KV = 1 implies (NR, NK) is (10, 4), (12, 6) or (14, 8) and ERK[j] = DRK[j] = 0 for j at
least 4(NR + 1); BUSY = 1 exactly when PENDING is not none; ERR = 0 implies ECODE = 0; GFRES has no bits above 7, so
a read of it while idle gives 0 there.
Rule R53. -/
def Obligations.ReachableStatesMeetR53 : Prop :=
  ∀ (n : Nat) (h : List HostAction) (s : State), runSteps n { State.reset with host := h } = .next s →
    (s.kv = false → s.nr = 0 ∧ s.nk = 0 ∧ ∀ j : Fin 60, s.erk.get j = 0 ∧ s.drk.get j = 0) ∧
    (s.kv = true → ((s.nr, s.nk) = (10, 4) ∨ (s.nr, s.nk) = (12, 6) ∨ (s.nr, s.nk) = (14, 8)) ∧
      ∀ j : Fin 60, 4 * (s.nr.toNat + 1) ≤ j.val → s.erk.get j = 0 ∧ s.drk.get j = 0) ∧
    (s.busy = true ↔ s.pending ≠ none) ∧
    (s.err = false → s.ecode = 0) ∧
    (s.busy = false → (readValue 0x02 s).extractLsb' 8 24 = 0)

/-- No step from the invariant faults; only bus accesses that are no aligned word of the register space are refused.
From every state that meets CoreInv the step answers no fault; and from every state a refused step is the host's
turn with a bus access whose width is not 4 bytes, whose byte address is not a multiple of 4, or whose address is
outside the 256 words from REG_BASE. The third cause is the model's reading of R70, which gives the core no other
address, and of no rule that says so (log entry 4).
From 00_scope.md section 7 (R28); 20_memory.md sections 1 and 2 (R70, R73). -/
def Obligations.NoStepFaultsAndOnlyBusAccessesAreRefused : Prop :=
  (∀ (s : State) (f : Fault), CoreInv s → step s ≠ .fault f) ∧
  (∀ (s : State) (r : Refusal), step s = .refused r →
    ∃ addr bytes, (ActsNext s (.busRead addr bytes) ∨ ∃ v, ActsNext s (.busWrite addr bytes v)) ∧
      (bytes ≠ 4 ∨ addr % 4 ≠ 0 ∨ addr < Config.regBase ∨ Config.regBase + 4 * 256 ≤ addr))

/-- KV, NR, NK, ERK and DRK change only at the completion of a successful KEYEXP and at reset.
For every step from a state that meets CoreInv: KV, NR, NK, ERK and DRK are as before; or the step is the completion
of a KEYEXP of 16, 24 or 32 bytes and KV is 1 and NR and NK are that length's; or the step is a reset and KV, NR and
NK are 0. In particular a refused KEYEXP leaves all five as they were.
Rule R44, R45. -/
def Obligations.OnlyKeyexpAndResetChangeTheKeySchedules : Prop :=
  ∀ s t : State, CoreInv s → step s = .next t →
    (t.kv = s.kv ∧ t.nr = s.nr ∧ t.nk = s.nk ∧ t.erk = s.erk ∧ t.drk = s.drk) ∨
    (∃ klen nk nr, CompletesNext s (.keyexp klen) ∧
      (klen, nk, nr) ∈ [(16, 4, 10), (24, 6, 12), (32, 8, 14)] ∧
      t.kv = true ∧ t.nr = BitVec.ofNat 4 nr ∧ t.nk = BitVec.ofNat 4 nk) ∨
    (ActsNext s .reset ∧ t.kv = false ∧ t.nr = 0 ∧ t.nk = 0)

/-- STATE, KEY, CMD, GFRES and the error record change only by the agents and commands the spec names.
For every step from a state that meets CoreInv: if STATE changes, the step is a reset, an idle host write to
0x04..0x07, or the completion of ENCRYPT, DECRYPT or one of the seven step commands; if KEY changes, a reset or an
idle host write to 0x08..0x0F; if CMD changes, a reset or an idle host write to 0x00; if GFRES changes, a reset or
the completion of a GFMUL; if ERR or ECODE changes, a reset or a host write.
From 20_memory.md section 4 (R86); 10_state.md sections 2 and 4 (R31, R32, R34, R41); 60_exceptions.md sections 1 and 2 (R257, R259). -/
def Obligations.WhoMayChangeEachRegister : Prop :=
  ∀ s t : State, CoreInv s → step s = .next t →
    (t.state ≠ s.state → ActsNext s .reset ∨
      (∃ off v, WritesNext s off v ∧ s.busy = false ∧ 0x04 ≤ off.toNat ∧ off.toNat ≤ 0x07) ∨
      ∃ i, CompletesNext s i ∧
        (i ∈ [.encrypt, .decrypt, .subbytes, .invsubbytes, .shiftrows, .invshiftrows, .mixcolumns, .invmixcolumns] ∨
          ∃ rnd sch, i = .addroundkey rnd sch)) ∧
    (t.key ≠ s.key → ActsNext s .reset ∨
      ∃ off v, WritesNext s off v ∧ s.busy = false ∧ 0x08 ≤ off.toNat ∧ off.toNat ≤ 0x0F) ∧
    (t.cmd ≠ s.cmd → ActsNext s .reset ∨ ∃ v, WritesNext s 0x00 v ∧ s.busy = false ∧ t.cmd = v) ∧
    (t.gfres ≠ s.gfres → ActsNext s .reset ∨ ∃ a b, CompletesNext s (.gfmul a b) ∧ t.gfres = gfmul a b) ∧
    (t.err ≠ s.err ∨ t.ecode ≠ s.ecode → ActsNext s .reset ∨ ∃ off v, WritesNext s off v)

/-- No host action but reset changes what the command in flight reads.
For every step of the host from a state that meets CoreInv while a command is in flight and its window is open, if
the host's action is not a reset, every register but ERR and ECODE is as before and the window is one step shorter.
That the fields keep their old values in the window is what completion works on, not what a host may read (R79; log
entry 2). The window as a number of steps, one shorter after each, is the model's choice (log entry 1).
From 30_encoding.md section 5 (R112); 20_memory.md sections 3 and 4 (R78, R84). -/
def Obligations.InFlightWindowKeepsWhatExecuteReads : Prop :=
  ∀ s t : State, CoreInv s → s.busy = true → s.remaining ≠ 0 → ¬ ActsNext s .reset → step s = .next t →
    SameButErrorRecord s t ∧ t.remaining = s.remaining - 1

/-- A host that waits after every CMD write never writes while busy and never reads a free word.
For every step from a state that meets CoreInv whose host keeps R301's discipline (after a CMD write, no register
access but a STATUS read until a WAIT): the host still keeps it afterwards, no free word is drawn, no
WRITE_WHILE_BUSY is recorded (ECODE is 5 afterwards only if it was before), and while a command is in flight no step
but a reset changes the error record. The four errors of acceptance can still be recorded. By induction this holds
along every run. That RESET ends the waiting and that a disciplined host makes no bus access is the model's reading
of R301 (log entry 9).
From 70_reset_and_hazards.md section 3 (R301). -/
def Obligations.DisciplinedHostsNeverWriteWhileBusyOrReadFreeWords : Prop :=
  ∀ s t : State, CoreInv s → disciplined s.busy s.host = true → step s = .next t →
    disciplined t.busy t.host = true ∧ t.freeReads = s.freeReads ∧ (t.ecode = 5 → s.ecode = 5) ∧
    (s.busy = true → ¬ ActsNext s .reset → t.err = s.err ∧ t.ecode = s.ecode)

/-- WAIT ends: the command in flight completes and the host goes on.
From every state that meets CoreInv whose host is at a WAIT, some number of steps, at most two more than the window,
leads to a state with nothing in flight whose host has passed the WAIT. That the window is a number of steps (log
entry 1) and that every window is finite, as the form of R306's fairness (log entry 6), are the model's choices.
From 70_reset_and_hazards.md section 3 (R306); 30_encoding.md section 6 (R121). -/
def Obligations.WaitEnds : Prop :=
  ∀ (s : State) (rest : List HostAction), CoreInv s → s.host = .wait :: rest →
    ∃ n t, n ≤ s.remaining + 2 ∧ runSteps n s = .next t ∧ t.Idle ∧ t.host = rest

/-- The result of a command does not depend on its latency.
From every state that meets CoreInv with a command in flight and the host at a WAIT, and for any two lengths m and n
of the window, the runs past the WAIT reach idle states with the same registers. That the window is a number of
steps (log entry 1) and that both runs get past the WAIT (log entry 6, R306's fairness) are the model's choices.
From 30_encoding.md section 5 (R112); 70_reset_and_hazards.md section 3 (R301). -/
def Obligations.ResultDoesNotDependOnLatency : Prop :=
  ∀ (s : State) (rest : List HostAction) (m n : Nat), CoreInv s → s.busy = true → s.host = .wait :: rest →
    ∃ j k t u, runSteps j { s with remaining := m } = .next t ∧ runSteps k { s with remaining := n } = .next u ∧
      t.Idle ∧ t.host = rest ∧ u.host = rest ∧ SameRegisters t u

/-- Issuing an acceptable command and waiting performs exactly its completion.
From every idle state that meets CoreInv, for every well-formed command i that acceptance would not refuse, when the
host writes its word to CMD and then waits, some number of steps leads to an idle state past the WAIT whose
registers are those exec i answers on the state with the command in flight. That each WAIT ends is R306's fairness
in the model's form (log entry 6).
From 30_encoding.md section 5 (R110, R112); 20_memory.md section 4 (R80); 70_reset_and_hazards.md section 3 (R306). -/
def Obligations.IssueAndWaitPerformsTheWholeCommand : Prop :=
  ∀ (s : State) (i : Instr) (rest : List HostAction), CoreInv s → s.Idle → i.wellFormed = true →
    acceptError i s = none → s.host = commandLine i :: .wait :: rest →
    ∃ n t u, runSteps n s = .next t ∧ t.Idle ∧ t.host = rest ∧
      exec i { s with cmd := encode i, pending := some (encode i), busy := true } = .next u ∧ SameRegisters u t

/-- The laws of the GF(2^8) multiplier.
For all bytes: gfmul is commutative and associative and distributes over XOR, 0x01 is its unit and 0x00 its zero, a
product is 0 only if a factor is, every nonzero byte has exactly one inverse and it is ginv of the byte, and
ginv(0x00) = 0x00.
Rule R133. -/
def Obligations.GfmulIsAField : Prop :=
  (∀ a b : Byte, gfmul a b = gfmul b a) ∧
  (∀ a b c : Byte, gfmul (gfmul a b) c = gfmul a (gfmul b c)) ∧
  (∀ a b c : Byte, gfmul a (b ^^^ c) = gfmul a b ^^^ gfmul a c) ∧
  (∀ a : Byte, gfmul a 0x01 = a ∧ gfmul a 0x00 = 0x00) ∧
  (∀ a b : Byte, gfmul a b = 0x00 → a = 0x00 ∨ b = 0x00) ∧
  (∀ x : Byte, x ≠ 0x00 → ∀ y : Byte, gfmul x y = 0x01 ↔ y = ginv x) ∧ ginv 0x00 = 0x00

/-- The multiples by 2, 3, 9, 11, 13 and 14 are XORs of xtime.
For every byte a, gfmul(a, 0x02) is a shifted left by one bit, XORed with 0x1b if bit 7 of a is 1; gfmul by 0x03 is
xtime(a) ^ a; gfmul by 0x09, 0x0b, 0x0d and 0x0e is the XOR of the multiples xtime^k(a) that their polynomials name.
Rule R132. -/
def Obligations.MultiplesByTheMatrixCoefficients : Prop :=
  ∀ a : Byte, xtime a = gfmul a 0x02 ∧ xtime a = (a <<< 1) ^^^ (if a.getLsbD 7 then 0x1b else 0x00) ∧
    gfmul a 0x03 = xtime a ^^^ a ∧
    gfmul a 0x09 = xtime (xtime (xtime a)) ^^^ a ∧
    gfmul a 0x0b = xtime (xtime (xtime a)) ^^^ xtime a ^^^ a ∧
    gfmul a 0x0d = xtime (xtime (xtime a)) ^^^ xtime (xtime a) ^^^ a ∧
    gfmul a 0x0e = xtime (xtime (xtime a)) ^^^ xtime (xtime a) ^^^ xtime a

/-- The S-box is the field inverse followed by the affine map, and INV_SBOX is its inverse.
For every byte x, with b = ginv(x), SBOX[x] = b ^ rotl8(b,1) ^ rotl8(b,2) ^ rotl8(b,3) ^ rotl8(b,4) ^ 0x63 with
rotl8(b,n) = ((b << n) | (b >> (8 - n)))[7:0]; INV_SBOX[SBOX[x]] = x, SBOX[INV_SBOX[x]] = x, and SBOX[x] is not x.
Rule R151, R154. -/
def Obligations.SboxesAreInverseThenAffine : Prop :=
  ∀ x : Byte,
    sbox x = ginv x ^^^ (ginv x <<< 1 ||| ginv x >>> 7) ^^^ (ginv x <<< 2 ||| ginv x >>> 6) ^^^
      (ginv x <<< 3 ||| ginv x >>> 5) ^^^ (ginv x <<< 4 ||| ginv x >>> 4) ^^^ 0x63 ∧
    invSbox (sbox x) = x ∧ sbox (invSbox x) = x ∧ sbox x ≠ x

/-- RCON holds the powers of x, and RotWord rotates a word left by one byte.
RCON[0] = 0x01, RCON[j] = gfmul(RCON[j-1], 0x02) for j in 1..15, and the sixteen values are those R155 lists; for
all bytes, RotWord(word(b0, b1, b2, b3)) = word(b1, b2, b3, b0); for every word w, RotWord(w) = (w << 8) | (w >>
24); and RotWord(0x09cf4f3c) = 0xcf4f3c09.
Rule R155, R170. -/
def Obligations.RoundConstantsAndRotation : Prop :=
  rcon 0 = 0x01 ∧ (∀ j : Fin 16, j.val ≠ 0 → rcon j.val = gfmul (rcon (j.val - 1)) 0x02) ∧
  (List.range 16).map rcon =
    [0x01, 0x02, 0x04, 0x08, 0x10, 0x20, 0x40, 0x80, 0x1b, 0x36, 0x6c, 0xd8, 0xab, 0x4d, 0x9a, 0x2f] ∧
  (∀ b0 b1 b2 b3 : Byte, rotWord (word b0 b1 b2 b3) = word b1 b2 b3 b0) ∧
  (∀ w : Word, rotWord w = w <<< 8 ||| w >>> 24) ∧ rotWord 0x09cf4f3c = 0xcf4f3c09

/-- InvMixColumn and MixColumn undo each other and both are linear.
For every word w, InvMixColumn(MixColumn(w)) = w = MixColumn(InvMixColumn(w)); for all words x and y, MixColumn(x ^
y) = MixColumn(x) ^ MixColumn(y), and the same for InvMixColumn.
Rule R206. -/
def Obligations.MixColumnLaws : Prop :=
  (∀ w : Word, invMixColumn (mixColumn w) = w ∧ mixColumn (invMixColumn w) = w) ∧
  (∀ x y : Word, mixColumn (x ^^^ y) = mixColumn x ^^^ mixColumn y ∧
    invMixColumn (x ^^^ y) = invMixColumn x ^^^ invMixColumn y)

/-- Substitution and row rotation: lanes, inverses, and commutation.
For every block s: SubBytes is SubWord on every word and output byte (r, c) is SBOX of input byte (r, c);
InvSubBytes and SubBytes undo each other; InvShiftRows and ShiftRows undo each other; ShiftRows commutes with
SubBytes and InvShiftRows with InvSubBytes.
Rule R191, R194, R200. -/
def Obligations.SubstitutionAndRotationLaws : Prop :=
  ∀ s : Block,
    (∀ c : Fin 4, (subBytes s).get c = subWord (s.get c) ∧ (invSubBytes s).get c = invSubWord (s.get c)) ∧
    (∀ r c : Fin 4, (subBytes s).byteAt r c = sbox (s.byteAt r c) ∧ (invSubBytes s).byteAt r c = invSbox (s.byteAt r c)) ∧
    invSubBytes (subBytes s) = s ∧ subBytes (invSubBytes s) = s ∧
    invShiftRows (shiftRows s) = s ∧ shiftRows (invShiftRows s) = s ∧
    shiftRows (subBytes s) = subBytes (shiftRows s) ∧ invShiftRows (invSubBytes s) = invSubBytes (invShiftRows s)

/-- The decryption schedule is the reversed and transformed encryption schedule.
For every key of 16, 24 or 32 bytes in KEY, after the KEYEXP in flight completes: DRK[0..3] = ERK[4Nr..4Nr+3];
DRK[4Nr..4Nr+3] = ERK[0..3], which are the key words 0..3; and for 0 < i < Nr, MixColumn(DRK[4i+c]) =
ERK[4(Nr-i)+c].
Rule R180. -/
def Obligations.DecryptionScheduleMirrorsEncryption : Prop :=
  ∀ (s : State) (klen nk nr : Nat), (klen, nk, nr) ∈ [(16, 4, 10), (24, 6, 12), (32, 8, 14)] →
    s.pending = some (encode (.keyexp klen)) →
    ∃ t, exec (.keyexp klen) s = .next t ∧ ∀ c, c < 4 →
      t.drk.getD c 0 = t.erk.getD (4 * nr + c) 0 ∧
      t.drk.getD (4 * nr + c) 0 = t.erk.getD c 0 ∧ t.erk.getD c 0 = s.key.getD c 0 ∧
      ∀ i, 0 < i → i < nr → mixColumn (t.drk.getD (4 * i + c) 0) = t.erk.getD (4 * (nr - i) + c) 0

/-- An accepted ADDROUNDKEY never reads past the live schedule.
In every state that meets CoreInv, if ADDROUNDKEY rnd passes acceptance then 4*rnd + 3 <= 4*NR + 3 <= 59, and with a
command in flight the meaning's STATE words are STATE[c] XOR word 4*rnd + c of the schedule the command names. Those
four words are all it reads of it: two states whose schedules agree on them and whose STATE agrees give the same
STATE.
Rule R209. -/
def Obligations.AddRoundKeyReadsTheLiveSchedule : Prop :=
  ∀ (s : State) (rnd : Nat) (sch : Sched), CoreInv s → acceptError (.addroundkey rnd sch) s = none →
    4 * rnd + 3 ≤ 4 * s.nr.toNat + 3 ∧ 4 * s.nr.toNat + 3 ≤ 59 ∧
    ∀ (t : State) (w : Word), s.pending = some w → exec (.addroundkey rnd sch) s = .next t →
      (∀ c : Fin 4, t.state.get c = s.state.get c ^^^ (s.schedule sch).getD (4 * rnd + c.val) 0) ∧
      ∀ u t' : State, u.pending = some w → u.state = s.state →
        (∀ c, c < 4 → (u.schedule sch).getD (4 * rnd + c) 0 = (s.schedule sch).getD (4 * rnd + c) 0) →
        exec (.addroundkey rnd sch) u = .next t' → t'.state = t.state

/-- The three known answers of ENCRYPT.
With the 128-, 192- and 256-bit keys 000102... of R222 expanded by KeyExpansion, Cipher takes the block
00112233445566778899aabbccddeeff to the three ciphertexts R222 lists.
Rule R222. -/
def Obligations.EncryptionKnownAnswers : Prop :=
  (∀ k : List Byte, k = (List.range 16).map (BitVec.ofNat 8) →
    cipher #v[0x00112233, 0x44556677, 0x8899aabb, 0xccddeeff] (scheduleBuf (keyExpansion k 4 10) 10) 10 =
      #v[0x69c4e0d8, 0x6a7b0430, 0xd8cdb780, 0x70b4c55a]) ∧
  (∀ k : List Byte, k = (List.range 24).map (BitVec.ofNat 8) →
    cipher #v[0x00112233, 0x44556677, 0x8899aabb, 0xccddeeff] (scheduleBuf (keyExpansion k 6 12) 12) 12 =
      #v[0xdda97ca4, 0x864cdfe0, 0x6eaf70a0, 0xec0d7191]) ∧
  (∀ k : List Byte, k = (List.range 32).map (BitVec.ofNat 8) →
    cipher #v[0x00112233, 0x44556677, 0x8899aabb, 0xccddeeff] (scheduleBuf (keyExpansion k 8 14) 14) 14 =
      #v[0x8ea2b7ca, 0x516745bf, 0xeafc4990, 0x4b496089])

/-- The equivalent inverse cipher on DRK is the textbook inverse cipher on ERK.
In every state that meets CoreInv with a key loaded, for every block b, EqInvCipher(b, DRK, NR) is what R228's
InvCipher(b, ERK, NR) gives: AddRoundKey with round key NR, then for i from NR-1 down to 1 InvShiftRows,
InvSubBytes, AddRoundKey i and InvMixColumns, then InvShiftRows, InvSubBytes and AddRoundKey 0; and DECRYPT in
flight completes with EqInvCipher of STATE.
Rule R228. -/
def Obligations.DecryptionIsTheTextbookInverse : Prop :=
  ∀ s : State, CoreInv s → s.kv = true →
    (∀ b : Block, eqInvCipher b s.drk s.nr.toNat = invCipher b s.erk s.nr.toNat) ∧
    (s.pending = some (encode .decrypt) →
      exec .decrypt s = .next { s with state := invCipher s.state s.erk s.nr.toNat, pending := none, busy := false,
                                       remaining := 0 })

/-- ENCRYPT then DECRYPT, and DECRYPT then ENCRYPT, leave STATE as it was.
From every idle state that meets CoreInv with a key loaded (as after a successful KEYEXP), whatever block STATE
holds: when the host issues ENCRYPT and then DECRYPT, each followed by WAIT, some number of steps leads to an idle
state past them with STATE as it was before; and the same for DECRYPT and then ENCRYPT. That each WAIT ends is
R306's fairness in the model's form (log entry 6).
From 45_block_transform.md section 2 (R226); 70_reset_and_hazards.md section 3 (R306). -/
def Obligations.DecryptionUndoesEncryption : Prop :=
  (∀ (s : State) (rest : List HostAction), CoreInv s → s.Idle → s.kv = true →
    s.host = commandsWithWait [.encrypt, .decrypt] ++ rest →
    ∃ n t, runSteps n s = .next t ∧ t.Idle ∧ t.host = rest ∧ t.state = s.state) ∧
  (∀ (s : State) (rest : List HostAction), CoreInv s → s.Idle → s.kv = true →
    s.host = commandsWithWait [.decrypt, .encrypt] ++ rest →
    ∃ n t, runSteps n s = .next t ∧ t.Idle ∧ t.host = rest ∧ t.state = s.state)

/-- The step commands of R223 leave STATE as one ENCRYPT does.
From every idle state that meets CoreInv with a key loaded, when the host issues the sequence of step commands of
R223, each followed by WAIT, some number of steps leads to an idle state past them whose STATE is the one that
ENCRYPT in flight on the starting state completes with, and whose other registers but CMD are as before. That each
WAIT ends is R306's fairness in the model's form (log entry 6).
From 45_block_transform.md section 1 (R223); 70_reset_and_hazards.md section 3 (R306). -/
def Obligations.StepCommandsDoWhatEncryptDoes : Prop :=
  ∀ (s : State) (rest : List HostAction), CoreInv s → s.Idle → s.kv = true →
    s.host = commandsWithWait (encryptSteps s.nr.toNat) ++ rest →
    ∃ n t u, runSteps n s = .next t ∧ t.Idle ∧ t.host = rest ∧
      exec .encrypt { s with pending := some (encode .encrypt), busy := true } = .next u ∧
      SameRegisters { u with cmd := t.cmd } t

/-- The step commands of R227 leave STATE as one DECRYPT does.
From every idle state that meets CoreInv with a key loaded, when the host issues the first sequence of step commands
of R227, each followed by WAIT, some number of steps leads to an idle state past them whose STATE is the one that
DECRYPT in flight on the starting state completes with, and whose other registers but CMD are as before. That each
WAIT ends is R306's fairness in the model's form (log entry 6).
From 45_block_transform.md section 2 (R227); 70_reset_and_hazards.md section 3 (R306). -/
def Obligations.StepCommandsDoWhatDecryptDoes : Prop :=
  ∀ (s : State) (rest : List HostAction), CoreInv s → s.Idle → s.kv = true →
    s.host = commandsWithWait (decryptSteps s.nr.toNat) ++ rest →
    ∃ n t u, runSteps n s = .next t ∧ t.Idle ∧ t.host = rest ∧
      exec .decrypt { s with pending := some (encode .decrypt), busy := true } = .next u ∧
      SameRegisters { u with cmd := t.cmd } t

/-- SETKEY and ENC return the cipher of the block under the key.
From every idle state that meets CoreInv, for every key of 16, 24 or 32 bytes and every block of 16 bytes, when the
host runs SETKEY key and ENC block, some number of steps leads to an idle state past them with KV = 1 and no error
recorded, whose STATE is Cipher of the block under the key's expansion; the host's last four reads are its four
words. That each WAIT ends is R306's fairness in the model's form (log entry 6).
From 30_encoding.md section 6 (R121, R122); 70_reset_and_hazards.md sections 2 and 3 (R294, R306). -/
def Obligations.SetKeyThenEncryptReturnsTheCiphertext : Prop :=
  ∀ (s : State) (k p : List Byte) (nk nr : Nat) (rest : List HostAction), CoreInv s → s.Idle →
    keyParams k.length = some (nk, nr) → p.length = 16 → s.host = setkey k ++ (encBlock p ++ rest) →
    ∃ n t, runSteps n s = .next t ∧ t.Idle ∧ t.host = rest ∧ t.kv = true ∧ t.err = false ∧
      t.state = cipher (blockOfBytes p) (scheduleBuf (keyExpansion k nk nr) nr) nr ∧
      t.observed.take 4 = [⟨0x07, t.state.get 3⟩, ⟨0x06, t.state.get 2⟩, ⟨0x05, t.state.get 1⟩, ⟨0x04, t.state.get 0⟩]

/-- NewCipher with a key of another length reads InvalidKeySize and keeps the old schedules.
From every idle state that meets CoreInv, for every key whose length is not 16, 24 or 32, however long, when the
host runs NewCipher key, some number of steps leads to an idle state past it in which ERR = 1 and ECODE = 1, the
host's last read is that STATUS word, and KV, NR, NK, ERK, DRK, KEY and STATE are as before. KEY is as before since
LDKEY stages nothing for such a key: of a key longer than 32 bytes R122 says so, of a shorter one it is the model's
choice, as R121 defines LDKEY for the three lengths only (log entry 9). Which KLEN a length of 256 or more is issued
with is a free value, any encodable length longer than 32 (log entry 9).
From 30_encoding.md section 6 (R121, R122); 43_key_schedule.md section 4 (R178). -/
def Obligations.NewCipherReportsInvalidKeySize : Prop :=
  ∀ (s : State) (k : List Byte) (rest : List HostAction), CoreInv s → s.Idle →
    k.length ≠ 16 → k.length ≠ 24 → k.length ≠ 32 → s.host = newCipher k ++ rest →
    ∃ n t, runSteps n s = .next t ∧ t.Idle ∧ t.host = rest ∧ t.err = true ∧ t.ecode = 1 ∧
      t.observed.head? = some ⟨0x01, t.statusWord⟩ ∧ t.kv = s.kv ∧ t.nr = s.nr ∧ t.nk = s.nk ∧
      t.erk = s.erk ∧ t.drk = s.drk ∧ t.key = s.key ∧ t.state = s.state
end

