-- ==== Sys2Proof/Laws/Bits.lean ====
section
/-! SUPPORT. Four bytes side by side in a word: the bits and the byte fields of the result. -/

namespace Sys2Proof

/-- Bit j of four bytes side by side, the first the most significant (R18). -/
theorem getLsbD_append4 (b0 b1 b2 b3 : Byte) (j : Nat) :
    BitVec.getLsbD (w := 32) (b0 ++ b1 ++ b2 ++ b3) j =
      if j < 8 then b3.getLsbD j
      else if j < 16 then b2.getLsbD (j - 8)
      else if j < 24 then b1.getLsbD (j - 16)
      else b0.getLsbD (j - 24) := by
  have h : (b0 ++ b1 ++ b2 ++ b3).getLsbD j =
      if j < 8 then b3.getLsbD j
      else if j < 16 then b2.getLsbD (j - 8)
      else if j < 24 then b1.getLsbD (j - 16)
      else b0.getLsbD (j - 24) := by
    simp only [BitVec.getLsbD_append, Nat.sub_sub]
    split
    · rfl
    · simp only [show (j - 8 < 8 ↔ j < 16) by omega, show (j - (8 + 8) < 8 ↔ j < 24) by omega]
  exact h

/-- Byte field k of four bytes side by side. -/
theorem extractLsb'_append4 (b0 b1 b2 b3 : Byte) :
    BitVec.extractLsb' (n := 32) 24 8 (b0 ++ b1 ++ b2 ++ b3) = b0 ∧
    BitVec.extractLsb' (n := 32) 16 8 (b0 ++ b1 ++ b2 ++ b3) = b1 ∧
    BitVec.extractLsb' (n := 32) 8 8 (b0 ++ b1 ++ b2 ++ b3) = b2 ∧
    BitVec.extractLsb' (n := 32) 0 8 (b0 ++ b1 ++ b2 ++ b3) = b3 := by
  refine ⟨?_, ?_, ?_, ?_⟩ <;>
  · apply BitVec.eq_of_getLsbD_eq
    intro i hi
    rw [BitVec.getLsbD_extractLsb', getLsbD_append4]
    simp only [hi, decide_true, Bool.true_and]
    repeat first
      | rw [if_pos (by omega)]
      | rw [if_neg (by omega)]
    congr 1
    omega

/-- A word is its four byte fields side by side. -/
theorem append4_extractLsb' (w : Word) :
    (w.extractLsb' 24 8 ++ w.extractLsb' 16 8 ++ w.extractLsb' 8 8 ++ w.extractLsb' 0 8 : Word) = w := by
  apply BitVec.eq_of_getLsbD_eq
  intro i hi
  rw [getLsbD_append4]
  simp only [BitVec.getLsbD_extractLsb']
  split
  · simp [*]
  · split
    · simp [show i - 8 < 8 by omega, show 8 + (i - 8) = i by omega]
    · split
      · simp [show i - 16 < 8 by omega, show 16 + (i - 16) = i by omega]
      · simp [show i - 24 < 8 by omega, show 24 + (i - 24) = i by omega]

end Sys2Proof
end

