-- ==== Sys2Proof/Laws/Block.lean ====
section
/-! SUPPORT. The layout of words and blocks: reading back what was put together. -/

namespace Sys2Proof.Machine

@[simp] theorem byte_word_zero (b0 b1 b2 b3 : Byte) : byte (word b0 b1 b2 b3) 0 = b0 :=
  (extractLsb'_append4 b0 b1 b2 b3).1

@[simp] theorem byte_word_one (b0 b1 b2 b3 : Byte) : byte (word b0 b1 b2 b3) 1 = b1 :=
  (extractLsb'_append4 b0 b1 b2 b3).2.1

@[simp] theorem byte_word_two (b0 b1 b2 b3 : Byte) : byte (word b0 b1 b2 b3) 2 = b2 :=
  (extractLsb'_append4 b0 b1 b2 b3).2.2.1

@[simp] theorem byte_word_three (b0 b1 b2 b3 : Byte) : byte (word b0 b1 b2 b3) 3 = b3 :=
  (extractLsb'_append4 b0 b1 b2 b3).2.2.2

/-- A word is its four bytes in big-endian order (R19). -/
@[simp] theorem word_byte (w : Word) : word (byte w 0) (byte w 1) (byte w 2) (byte w 3) = w :=
  append4_extractLsb' w

/-- Two words with the same bytes are the same. -/
theorem word_ext {v w : Word} (h : ∀ k : Fin 4, byte v k = byte w k) : v = w := by
  rw [← word_byte v, ← word_byte w, h 0, h 1, h 2, h 3]

/-- The byte a block was built with (R22). -/
@[simp] theorem byteAt_ofBytes (f : Fin 4 → Fin 4 → Byte) (r c : Fin 4) : (Block.ofBytes f).byteAt r c = f r c := by
  have h : (Block.ofBytes f).get c = word (f 0 c) (f 1 c) (f 2 c) (f 3 c) := by
    simp [Block.ofBytes, Vector.get_eq_getElem]
  unfold Block.byteAt
  rw [h]
  match r with
  | 0 => exact byte_word_zero ..
  | 1 => exact byte_word_one ..
  | 2 => exact byte_word_two ..
  | 3 => exact byte_word_three ..

/-- Two blocks with the same bytes are the same (R22). -/
theorem block_ext {s t : Block} (h : ∀ r c : Fin 4, s.byteAt r c = t.byteAt r c) : s = t := by
  apply Vector.ext
  intro i hi
  exact word_ext fun r => h r ⟨i, hi⟩

@[simp] theorem subBytes_byteAt (s : Block) (r c : Fin 4) : (subBytes s).byteAt r c = sbox (s.byteAt r c) :=
  byteAt_ofBytes _ r c

@[simp] theorem invSubBytes_byteAt (s : Block) (r c : Fin 4) :
    (invSubBytes s).byteAt r c = invSbox (s.byteAt r c) := byteAt_ofBytes _ r c

@[simp] theorem shiftRows_byteAt (s : Block) (r c : Fin 4) : (shiftRows s).byteAt r c = s.byteAt r (c + r) :=
  byteAt_ofBytes _ r c

@[simp] theorem invShiftRows_byteAt (s : Block) (r c : Fin 4) : (invShiftRows s).byteAt r c = s.byteAt r (c - r) :=
  byteAt_ofBytes _ r c

@[simp] theorem mixColumns_get (s : Block) (c : Fin 4) : (mixColumns s).get c = mixColumn (s.get c) := by
  simp [mixColumns, Vector.get_eq_getElem]

@[simp] theorem invMixColumns_get (s : Block) (c : Fin 4) : (invMixColumns s).get c = invMixColumn (s.get c) := by
  simp [invMixColumns, Vector.get_eq_getElem]

@[simp] theorem addRoundKey_get (s : Block) (k : ScheduleBuf) (i : Nat) (c : Fin 4) :
    (addRoundKey s k i).get c = s.get c ^^^ roundKeyWord k i c := by
  simp [addRoundKey, Vector.get_eq_getElem]

@[simp] theorem scheduleBuf_get (w : List Word) (nr : Nat) (j : Fin 60) :
    (scheduleBuf w nr).get j = if j.val < 4 * (nr + 1) then w.getD j.val 0 else 0 := by
  simp [scheduleBuf, Vector.get_eq_getElem]

end Sys2Proof.Machine
end

