-- ==== Sys2Proof/Laws/Encoding.lean ====
section
/-! SUPPORT. The fields of a packed command word, and what a decode says. -/

namespace Sys2Proof

@[simp] theorem fieldOP_packWord (op a b : Byte) : fieldOP (packWord op a b) = op :=
  (extractLsb'_append4 0 b a op).2.2.2

@[simp] theorem fieldA_packWord (op a b : Byte) : fieldA (packWord op a b) = a :=
  (extractLsb'_append4 0 b a op).2.2.1

@[simp] theorem fieldB_packWord (op a b : Byte) : fieldB (packWord op a b) = b :=
  (extractLsb'_append4 0 b a op).2.1

@[simp] theorem fieldX_packWord (op a b : Byte) : fieldX (packWord op a b) = 0 :=
  (extractLsb'_append4 0 b a op).1

/-- A word is its four fields, X in the most significant byte (R100). -/
theorem word_of_fields (w : Word) : (fieldX w ++ fieldB w ++ fieldA w ++ fieldOP w : Word) = w :=
  append4_extractLsb' w

/-- A decoded plain command had A = 0 and B = 0 (R106). -/
theorem decodePlain_ok {i j : Instr} {a b : Byte} :
    decodePlain i a b = .ok j ↔ a = 0 ∧ b = 0 ∧ i = j := by
  unfold decodePlain
  by_cases ha : a = 0#8 <;> by_cases hb : b = 0#8 <;> simp [ha, hb]

/-- A packed word decodes as its fields do: X is 0 (R106). -/
theorem decode_packWord (op a b : Byte) : decode (packWord op a b) = decodeOp op a b := by
  simp [decode]

/-- The opcode of a command (R104). -/
def opcode : Instr → Byte
  | .nop => 0x00
  | .keyexp _ => 0x01
  | .encrypt => 0x02
  | .decrypt => 0x03
  | .gfmul _ _ => 0x04
  | .subbytes => 0x10
  | .invsubbytes => 0x11
  | .shiftrows => 0x12
  | .invshiftrows => 0x13
  | .mixcolumns => 0x14
  | .invmixcolumns => 0x15
  | .addroundkey _ _ => 0x16

end Sys2Proof
end

