-- ==== Sys2Proof/Laws/HostProgram.lean ====
section
/-! SUPPORT. What a host program issues for a key: the length it names fits KLEN, and is refused where the key's is. -/

namespace Sys2Proof.Machine

/-- The length issued for a key always fits the 8 bits of KLEN (R102). -/
theorem keyexpLength_wellFormed (n : Nat) : (Instr.keyexp (keyexpLength n)).wellFormed = true := by
  apply decide_eq_true
  unfold keyexpLength
  split <;> omega

/-- The lengths that the core takes, and their parameters (R11). -/
theorem keyParams_cases {n : Nat} {p : Nat × Nat} (h : keyParams n = some p) :
    (n = 16 ∧ p = (4, 10)) ∨ (n = 24 ∧ p = (6, 12)) ∨ (n = 32 ∧ p = (8, 14)) := by
  unfold keyParams at h
  split_ifs at h <;> cases h <;> simp_all

/-- A length is refused exactly if it is none of the three (R11, R251). -/
theorem keyParams_none {n : Nat} : keyParams n = none ↔ n ≠ 16 ∧ n ≠ 24 ∧ n ≠ 32 := by
  unfold keyParams
  split_ifs <;> simp_all

/-- A key that the core takes is issued with its own length (R121). -/
theorem keyexpLength_of_keyParams {n : Nat} {p : Nat × Nat} (h : keyParams n = some p) : keyexpLength n = n := by
  rcases keyParams_cases h with ⟨rfl, -⟩ | ⟨rfl, -⟩ | ⟨rfl, -⟩ <;> rfl

/-- A key of any other length, however long, is issued with a length that the core refuses (R122, R251). -/
theorem keyexpLength_refused {n : Nat} (h : keyParams n = none) : keyParams (keyexpLength n) = none := by
  rw [keyParams_none] at h ⊢
  unfold keyexpLength
  split
  · exact h
  · omega

end Sys2Proof.Machine
end

