-- ==== Sys2Proof/Laws/State.lean ====
section
/-! SUPPORT. What each named update leaves in each field, so that no proof unfolds a record update. -/

namespace Sys2Proof.Machine

/-! raiseError (R258: only ERR and ECODE change.) -/
@[simp] theorem raiseError_state (e : CmdError) (s : State) : (raiseError e s).state = s.state := rfl
@[simp] theorem raiseError_key (e : CmdError) (s : State) : (raiseError e s).key = s.key := rfl
@[simp] theorem raiseError_cmd (e : CmdError) (s : State) : (raiseError e s).cmd = s.cmd := rfl
@[simp] theorem raiseError_busy (e : CmdError) (s : State) : (raiseError e s).busy = s.busy := rfl
@[simp] theorem raiseError_kv (e : CmdError) (s : State) : (raiseError e s).kv = s.kv := rfl
@[simp] theorem raiseError_err (e : CmdError) (s : State) : (raiseError e s).err = true := rfl
@[simp] theorem raiseError_ecode (e : CmdError) (s : State) : (raiseError e s).ecode = if s.err then s.ecode else e.code := rfl
@[simp] theorem raiseError_nr (e : CmdError) (s : State) : (raiseError e s).nr = s.nr := rfl
@[simp] theorem raiseError_nk (e : CmdError) (s : State) : (raiseError e s).nk = s.nk := rfl
@[simp] theorem raiseError_gfres (e : CmdError) (s : State) : (raiseError e s).gfres = s.gfres := rfl
@[simp] theorem raiseError_erk (e : CmdError) (s : State) : (raiseError e s).erk = s.erk := rfl
@[simp] theorem raiseError_drk (e : CmdError) (s : State) : (raiseError e s).drk = s.drk := rfl
@[simp] theorem raiseError_pending (e : CmdError) (s : State) : (raiseError e s).pending = s.pending := rfl
@[simp] theorem raiseError_remaining (e : CmdError) (s : State) : (raiseError e s).remaining = s.remaining := rfl
@[simp] theorem raiseError_accepted (e : CmdError) (s : State) : (raiseError e s).accepted = s.accepted := rfl
@[simp] theorem raiseError_freeReads (e : CmdError) (s : State) : (raiseError e s).freeReads = s.freeReads := rfl
@[simp] theorem raiseError_host (e : CmdError) (s : State) : (raiseError e s).host = s.host := rfl
@[simp] theorem raiseError_observed (e : CmdError) (s : State) : (raiseError e s).observed = s.observed := rfl

/-! clearError (R43, R259: only ERR and ECODE change.) -/
@[simp] theorem clearError_state (s : State) : (clearError s).state = s.state := rfl
@[simp] theorem clearError_key (s : State) : (clearError s).key = s.key := rfl
@[simp] theorem clearError_cmd (s : State) : (clearError s).cmd = s.cmd := rfl
@[simp] theorem clearError_busy (s : State) : (clearError s).busy = s.busy := rfl
@[simp] theorem clearError_kv (s : State) : (clearError s).kv = s.kv := rfl
@[simp] theorem clearError_err (s : State) : (clearError s).err = false := rfl
@[simp] theorem clearError_ecode (s : State) : (clearError s).ecode = 0 := rfl
@[simp] theorem clearError_nr (s : State) : (clearError s).nr = s.nr := rfl
@[simp] theorem clearError_nk (s : State) : (clearError s).nk = s.nk := rfl
@[simp] theorem clearError_gfres (s : State) : (clearError s).gfres = s.gfres := rfl
@[simp] theorem clearError_erk (s : State) : (clearError s).erk = s.erk := rfl
@[simp] theorem clearError_drk (s : State) : (clearError s).drk = s.drk := rfl
@[simp] theorem clearError_pending (s : State) : (clearError s).pending = s.pending := rfl
@[simp] theorem clearError_remaining (s : State) : (clearError s).remaining = s.remaining := rfl
@[simp] theorem clearError_accepted (s : State) : (clearError s).accepted = s.accepted := rfl
@[simp] theorem clearError_freeReads (s : State) : (clearError s).freeReads = s.freeReads := rfl
@[simp] theorem clearError_host (s : State) : (clearError s).host = s.host := rfl
@[simp] theorem clearError_observed (s : State) : (clearError s).observed = s.observed := rfl

/-! acceptCommand (R110: the end of acceptance.) -/
@[simp] theorem acceptCommand_state (i : Instr) (s : State) : (acceptCommand i s).state = s.state := rfl
@[simp] theorem acceptCommand_key (i : Instr) (s : State) : (acceptCommand i s).key = s.key := rfl
@[simp] theorem acceptCommand_cmd (i : Instr) (s : State) : (acceptCommand i s).cmd = s.cmd := rfl
@[simp] theorem acceptCommand_busy (i : Instr) (s : State) : (acceptCommand i s).busy = true := rfl
@[simp] theorem acceptCommand_kv (i : Instr) (s : State) : (acceptCommand i s).kv = s.kv := rfl
@[simp] theorem acceptCommand_err (i : Instr) (s : State) : (acceptCommand i s).err = s.err := rfl
@[simp] theorem acceptCommand_ecode (i : Instr) (s : State) : (acceptCommand i s).ecode = s.ecode := rfl
@[simp] theorem acceptCommand_nr (i : Instr) (s : State) : (acceptCommand i s).nr = s.nr := rfl
@[simp] theorem acceptCommand_nk (i : Instr) (s : State) : (acceptCommand i s).nk = s.nk := rfl
@[simp] theorem acceptCommand_gfres (i : Instr) (s : State) : (acceptCommand i s).gfres = s.gfres := rfl
@[simp] theorem acceptCommand_erk (i : Instr) (s : State) : (acceptCommand i s).erk = s.erk := rfl
@[simp] theorem acceptCommand_drk (i : Instr) (s : State) : (acceptCommand i s).drk = s.drk := rfl
@[simp] theorem acceptCommand_pending (i : Instr) (s : State) : (acceptCommand i s).pending = some (encode i) := rfl
@[simp] theorem acceptCommand_remaining (i : Instr) (s : State) : (acceptCommand i s).remaining = latency i s.accepted s.snapshot - 1 := rfl
@[simp] theorem acceptCommand_accepted (i : Instr) (s : State) : (acceptCommand i s).accepted = s.accepted + 1 := rfl
@[simp] theorem acceptCommand_freeReads (i : Instr) (s : State) : (acceptCommand i s).freeReads = s.freeReads := rfl
@[simp] theorem acceptCommand_host (i : Instr) (s : State) : (acceptCommand i s).host = s.host := rfl
@[simp] theorem acceptCommand_observed (i : Instr) (s : State) : (acceptCommand i s).observed = s.observed := rfl

/-! finishCommand (R112: the end of completion.) -/
@[simp] theorem finishCommand_state (s : State) : (finishCommand s).state = s.state := rfl
@[simp] theorem finishCommand_key (s : State) : (finishCommand s).key = s.key := rfl
@[simp] theorem finishCommand_cmd (s : State) : (finishCommand s).cmd = s.cmd := rfl
@[simp] theorem finishCommand_busy (s : State) : (finishCommand s).busy = false := rfl
@[simp] theorem finishCommand_kv (s : State) : (finishCommand s).kv = s.kv := rfl
@[simp] theorem finishCommand_err (s : State) : (finishCommand s).err = s.err := rfl
@[simp] theorem finishCommand_ecode (s : State) : (finishCommand s).ecode = s.ecode := rfl
@[simp] theorem finishCommand_nr (s : State) : (finishCommand s).nr = s.nr := rfl
@[simp] theorem finishCommand_nk (s : State) : (finishCommand s).nk = s.nk := rfl
@[simp] theorem finishCommand_gfres (s : State) : (finishCommand s).gfres = s.gfres := rfl
@[simp] theorem finishCommand_erk (s : State) : (finishCommand s).erk = s.erk := rfl
@[simp] theorem finishCommand_drk (s : State) : (finishCommand s).drk = s.drk := rfl
@[simp] theorem finishCommand_pending (s : State) : (finishCommand s).pending = none := rfl
@[simp] theorem finishCommand_remaining (s : State) : (finishCommand s).remaining = 0 := rfl
@[simp] theorem finishCommand_accepted (s : State) : (finishCommand s).accepted = s.accepted := rfl
@[simp] theorem finishCommand_freeReads (s : State) : (finishCommand s).freeReads = s.freeReads := rfl
@[simp] theorem finishCommand_host (s : State) : (finishCommand s).host = s.host := rfl
@[simp] theorem finishCommand_observed (s : State) : (finishCommand s).observed = s.observed := rfl

/-! resetCore (R290.) -/
@[simp] theorem resetCore_state (s : State) : (resetCore s).state = State.reset.state := rfl
@[simp] theorem resetCore_key (s : State) : (resetCore s).key = State.reset.key := rfl
@[simp] theorem resetCore_cmd (s : State) : (resetCore s).cmd = State.reset.cmd := rfl
@[simp] theorem resetCore_busy (s : State) : (resetCore s).busy = State.reset.busy := rfl
@[simp] theorem resetCore_kv (s : State) : (resetCore s).kv = State.reset.kv := rfl
@[simp] theorem resetCore_err (s : State) : (resetCore s).err = State.reset.err := rfl
@[simp] theorem resetCore_ecode (s : State) : (resetCore s).ecode = State.reset.ecode := rfl
@[simp] theorem resetCore_nr (s : State) : (resetCore s).nr = State.reset.nr := rfl
@[simp] theorem resetCore_nk (s : State) : (resetCore s).nk = State.reset.nk := rfl
@[simp] theorem resetCore_gfres (s : State) : (resetCore s).gfres = State.reset.gfres := rfl
@[simp] theorem resetCore_erk (s : State) : (resetCore s).erk = State.reset.erk := rfl
@[simp] theorem resetCore_drk (s : State) : (resetCore s).drk = State.reset.drk := rfl
@[simp] theorem resetCore_pending (s : State) : (resetCore s).pending = State.reset.pending := rfl
@[simp] theorem resetCore_remaining (s : State) : (resetCore s).remaining = State.reset.remaining := rfl
@[simp] theorem resetCore_accepted (s : State) : (resetCore s).accepted = s.accepted := rfl
@[simp] theorem resetCore_freeReads (s : State) : (resetCore s).freeReads = s.freeReads := rfl
@[simp] theorem resetCore_host (s : State) : (resetCore s).host = s.host := rfl
@[simp] theorem resetCore_observed (s : State) : (resetCore s).observed = s.observed := rfl

/-! hostRead (R74, R77: a read changes no register.) -/
@[simp] theorem hostRead_state (off : BitVec 8) (s : State) : (hostRead off s).state = s.state := rfl
@[simp] theorem hostRead_key (off : BitVec 8) (s : State) : (hostRead off s).key = s.key := rfl
@[simp] theorem hostRead_cmd (off : BitVec 8) (s : State) : (hostRead off s).cmd = s.cmd := rfl
@[simp] theorem hostRead_busy (off : BitVec 8) (s : State) : (hostRead off s).busy = s.busy := rfl
@[simp] theorem hostRead_kv (off : BitVec 8) (s : State) : (hostRead off s).kv = s.kv := rfl
@[simp] theorem hostRead_err (off : BitVec 8) (s : State) : (hostRead off s).err = s.err := rfl
@[simp] theorem hostRead_ecode (off : BitVec 8) (s : State) : (hostRead off s).ecode = s.ecode := rfl
@[simp] theorem hostRead_nr (off : BitVec 8) (s : State) : (hostRead off s).nr = s.nr := rfl
@[simp] theorem hostRead_nk (off : BitVec 8) (s : State) : (hostRead off s).nk = s.nk := rfl
@[simp] theorem hostRead_gfres (off : BitVec 8) (s : State) : (hostRead off s).gfres = s.gfres := rfl
@[simp] theorem hostRead_erk (off : BitVec 8) (s : State) : (hostRead off s).erk = s.erk := rfl
@[simp] theorem hostRead_drk (off : BitVec 8) (s : State) : (hostRead off s).drk = s.drk := rfl
@[simp] theorem hostRead_pending (off : BitVec 8) (s : State) : (hostRead off s).pending = s.pending := rfl
@[simp] theorem hostRead_remaining (off : BitVec 8) (s : State) : (hostRead off s).remaining = s.remaining := rfl
@[simp] theorem hostRead_accepted (off : BitVec 8) (s : State) : (hostRead off s).accepted = s.accepted := rfl
@[simp] theorem hostRead_freeReads (off : BitVec 8) (s : State) : (hostRead off s).freeReads = if readIsFree off s then s.freeReads + 1 else s.freeReads := rfl
@[simp] theorem hostRead_host (off : BitVec 8) (s : State) : (hostRead off s).host = s.host := rfl
@[simp] theorem hostRead_observed (off : BitVec 8) (s : State) : (hostRead off s).observed = ⟨off, readValue off s⟩ :: s.observed := rfl

/-! expandKey (R174: both schedules, NR, NK and KV.) -/
@[simp] theorem expandKey_state (nk nr : Nat) (s : State) : (expandKey nk nr s).state = s.state := rfl
@[simp] theorem expandKey_key (nk nr : Nat) (s : State) : (expandKey nk nr s).key = s.key := rfl
@[simp] theorem expandKey_cmd (nk nr : Nat) (s : State) : (expandKey nk nr s).cmd = s.cmd := rfl
@[simp] theorem expandKey_busy (nk nr : Nat) (s : State) : (expandKey nk nr s).busy = s.busy := rfl
@[simp] theorem expandKey_kv (nk nr : Nat) (s : State) : (expandKey nk nr s).kv = true := rfl
@[simp] theorem expandKey_err (nk nr : Nat) (s : State) : (expandKey nk nr s).err = s.err := rfl
@[simp] theorem expandKey_ecode (nk nr : Nat) (s : State) : (expandKey nk nr s).ecode = s.ecode := rfl
@[simp] theorem expandKey_nr (nk nr : Nat) (s : State) : (expandKey nk nr s).nr = BitVec.ofNat 4 nr := rfl
@[simp] theorem expandKey_nk (nk nr : Nat) (s : State) : (expandKey nk nr s).nk = BitVec.ofNat 4 nk := rfl
@[simp] theorem expandKey_gfres (nk nr : Nat) (s : State) : (expandKey nk nr s).gfres = s.gfres := rfl
@[simp] theorem expandKey_erk (nk nr : Nat) (s : State) : (expandKey nk nr s).erk = scheduleBuf (encSchedule s.key nk nr) nr := rfl
@[simp] theorem expandKey_drk (nk nr : Nat) (s : State) : (expandKey nk nr s).drk = scheduleBuf (inverseSchedule (encSchedule s.key nk nr) nr) nr := rfl
@[simp] theorem expandKey_pending (nk nr : Nat) (s : State) : (expandKey nk nr s).pending = s.pending := rfl
@[simp] theorem expandKey_remaining (nk nr : Nat) (s : State) : (expandKey nk nr s).remaining = s.remaining := rfl
@[simp] theorem expandKey_accepted (nk nr : Nat) (s : State) : (expandKey nk nr s).accepted = s.accepted := rfl
@[simp] theorem expandKey_freeReads (nk nr : Nat) (s : State) : (expandKey nk nr s).freeReads = s.freeReads := rfl
@[simp] theorem expandKey_host (nk nr : Nat) (s : State) : (expandKey nk nr s).host = s.host := rfl
@[simp] theorem expandKey_observed (nk nr : Nat) (s : State) : (expandKey nk nr s).observed = s.observed := rfl

/-! setBlock (R31.) -/
@[simp] theorem setBlock_state (b : Block) (s : State) : (setBlock b s).state = b := rfl
@[simp] theorem setBlock_key (b : Block) (s : State) : (setBlock b s).key = s.key := rfl
@[simp] theorem setBlock_cmd (b : Block) (s : State) : (setBlock b s).cmd = s.cmd := rfl
@[simp] theorem setBlock_busy (b : Block) (s : State) : (setBlock b s).busy = s.busy := rfl
@[simp] theorem setBlock_kv (b : Block) (s : State) : (setBlock b s).kv = s.kv := rfl
@[simp] theorem setBlock_err (b : Block) (s : State) : (setBlock b s).err = s.err := rfl
@[simp] theorem setBlock_ecode (b : Block) (s : State) : (setBlock b s).ecode = s.ecode := rfl
@[simp] theorem setBlock_nr (b : Block) (s : State) : (setBlock b s).nr = s.nr := rfl
@[simp] theorem setBlock_nk (b : Block) (s : State) : (setBlock b s).nk = s.nk := rfl
@[simp] theorem setBlock_gfres (b : Block) (s : State) : (setBlock b s).gfres = s.gfres := rfl
@[simp] theorem setBlock_erk (b : Block) (s : State) : (setBlock b s).erk = s.erk := rfl
@[simp] theorem setBlock_drk (b : Block) (s : State) : (setBlock b s).drk = s.drk := rfl
@[simp] theorem setBlock_pending (b : Block) (s : State) : (setBlock b s).pending = s.pending := rfl
@[simp] theorem setBlock_remaining (b : Block) (s : State) : (setBlock b s).remaining = s.remaining := rfl
@[simp] theorem setBlock_accepted (b : Block) (s : State) : (setBlock b s).accepted = s.accepted := rfl
@[simp] theorem setBlock_freeReads (b : Block) (s : State) : (setBlock b s).freeReads = s.freeReads := rfl
@[simp] theorem setBlock_host (b : Block) (s : State) : (setBlock b s).host = s.host := rfl
@[simp] theorem setBlock_observed (b : Block) (s : State) : (setBlock b s).observed = s.observed := rfl

/-! setStateWord (R75.) -/
@[simp] theorem setStateWord_state (c : Fin 4) (v : Word) (s : State) : (setStateWord c v s).state = s.state.set c.val v := rfl
@[simp] theorem setStateWord_key (c : Fin 4) (v : Word) (s : State) : (setStateWord c v s).key = s.key := rfl
@[simp] theorem setStateWord_cmd (c : Fin 4) (v : Word) (s : State) : (setStateWord c v s).cmd = s.cmd := rfl
@[simp] theorem setStateWord_busy (c : Fin 4) (v : Word) (s : State) : (setStateWord c v s).busy = s.busy := rfl
@[simp] theorem setStateWord_kv (c : Fin 4) (v : Word) (s : State) : (setStateWord c v s).kv = s.kv := rfl
@[simp] theorem setStateWord_err (c : Fin 4) (v : Word) (s : State) : (setStateWord c v s).err = s.err := rfl
@[simp] theorem setStateWord_ecode (c : Fin 4) (v : Word) (s : State) : (setStateWord c v s).ecode = s.ecode := rfl
@[simp] theorem setStateWord_nr (c : Fin 4) (v : Word) (s : State) : (setStateWord c v s).nr = s.nr := rfl
@[simp] theorem setStateWord_nk (c : Fin 4) (v : Word) (s : State) : (setStateWord c v s).nk = s.nk := rfl
@[simp] theorem setStateWord_gfres (c : Fin 4) (v : Word) (s : State) : (setStateWord c v s).gfres = s.gfres := rfl
@[simp] theorem setStateWord_erk (c : Fin 4) (v : Word) (s : State) : (setStateWord c v s).erk = s.erk := rfl
@[simp] theorem setStateWord_drk (c : Fin 4) (v : Word) (s : State) : (setStateWord c v s).drk = s.drk := rfl
@[simp] theorem setStateWord_pending (c : Fin 4) (v : Word) (s : State) : (setStateWord c v s).pending = s.pending := rfl
@[simp] theorem setStateWord_remaining (c : Fin 4) (v : Word) (s : State) : (setStateWord c v s).remaining = s.remaining := rfl
@[simp] theorem setStateWord_accepted (c : Fin 4) (v : Word) (s : State) : (setStateWord c v s).accepted = s.accepted := rfl
@[simp] theorem setStateWord_freeReads (c : Fin 4) (v : Word) (s : State) : (setStateWord c v s).freeReads = s.freeReads := rfl
@[simp] theorem setStateWord_host (c : Fin 4) (v : Word) (s : State) : (setStateWord c v s).host = s.host := rfl
@[simp] theorem setStateWord_observed (c : Fin 4) (v : Word) (s : State) : (setStateWord c v s).observed = s.observed := rfl

/-! setKeyWord (R75.) -/
@[simp] theorem setKeyWord_state (i : Fin 8) (v : Word) (s : State) : (setKeyWord i v s).state = s.state := rfl
@[simp] theorem setKeyWord_key (i : Fin 8) (v : Word) (s : State) : (setKeyWord i v s).key = s.key.set i.val v := rfl
@[simp] theorem setKeyWord_cmd (i : Fin 8) (v : Word) (s : State) : (setKeyWord i v s).cmd = s.cmd := rfl
@[simp] theorem setKeyWord_busy (i : Fin 8) (v : Word) (s : State) : (setKeyWord i v s).busy = s.busy := rfl
@[simp] theorem setKeyWord_kv (i : Fin 8) (v : Word) (s : State) : (setKeyWord i v s).kv = s.kv := rfl
@[simp] theorem setKeyWord_err (i : Fin 8) (v : Word) (s : State) : (setKeyWord i v s).err = s.err := rfl
@[simp] theorem setKeyWord_ecode (i : Fin 8) (v : Word) (s : State) : (setKeyWord i v s).ecode = s.ecode := rfl
@[simp] theorem setKeyWord_nr (i : Fin 8) (v : Word) (s : State) : (setKeyWord i v s).nr = s.nr := rfl
@[simp] theorem setKeyWord_nk (i : Fin 8) (v : Word) (s : State) : (setKeyWord i v s).nk = s.nk := rfl
@[simp] theorem setKeyWord_gfres (i : Fin 8) (v : Word) (s : State) : (setKeyWord i v s).gfres = s.gfres := rfl
@[simp] theorem setKeyWord_erk (i : Fin 8) (v : Word) (s : State) : (setKeyWord i v s).erk = s.erk := rfl
@[simp] theorem setKeyWord_drk (i : Fin 8) (v : Word) (s : State) : (setKeyWord i v s).drk = s.drk := rfl
@[simp] theorem setKeyWord_pending (i : Fin 8) (v : Word) (s : State) : (setKeyWord i v s).pending = s.pending := rfl
@[simp] theorem setKeyWord_remaining (i : Fin 8) (v : Word) (s : State) : (setKeyWord i v s).remaining = s.remaining := rfl
@[simp] theorem setKeyWord_accepted (i : Fin 8) (v : Word) (s : State) : (setKeyWord i v s).accepted = s.accepted := rfl
@[simp] theorem setKeyWord_freeReads (i : Fin 8) (v : Word) (s : State) : (setKeyWord i v s).freeReads = s.freeReads := rfl
@[simp] theorem setKeyWord_host (i : Fin 8) (v : Word) (s : State) : (setKeyWord i v s).host = s.host := rfl
@[simp] theorem setKeyWord_observed (i : Fin 8) (v : Word) (s : State) : (setKeyWord i v s).observed = s.observed := rfl

/-! setCmd (R41.) -/
@[simp] theorem setCmd_state (v : Word) (s : State) : (setCmd v s).state = s.state := rfl
@[simp] theorem setCmd_key (v : Word) (s : State) : (setCmd v s).key = s.key := rfl
@[simp] theorem setCmd_cmd (v : Word) (s : State) : (setCmd v s).cmd = v := rfl
@[simp] theorem setCmd_busy (v : Word) (s : State) : (setCmd v s).busy = s.busy := rfl
@[simp] theorem setCmd_kv (v : Word) (s : State) : (setCmd v s).kv = s.kv := rfl
@[simp] theorem setCmd_err (v : Word) (s : State) : (setCmd v s).err = s.err := rfl
@[simp] theorem setCmd_ecode (v : Word) (s : State) : (setCmd v s).ecode = s.ecode := rfl
@[simp] theorem setCmd_nr (v : Word) (s : State) : (setCmd v s).nr = s.nr := rfl
@[simp] theorem setCmd_nk (v : Word) (s : State) : (setCmd v s).nk = s.nk := rfl
@[simp] theorem setCmd_gfres (v : Word) (s : State) : (setCmd v s).gfres = s.gfres := rfl
@[simp] theorem setCmd_erk (v : Word) (s : State) : (setCmd v s).erk = s.erk := rfl
@[simp] theorem setCmd_drk (v : Word) (s : State) : (setCmd v s).drk = s.drk := rfl
@[simp] theorem setCmd_pending (v : Word) (s : State) : (setCmd v s).pending = s.pending := rfl
@[simp] theorem setCmd_remaining (v : Word) (s : State) : (setCmd v s).remaining = s.remaining := rfl
@[simp] theorem setCmd_accepted (v : Word) (s : State) : (setCmd v s).accepted = s.accepted := rfl
@[simp] theorem setCmd_freeReads (v : Word) (s : State) : (setCmd v s).freeReads = s.freeReads := rfl
@[simp] theorem setCmd_host (v : Word) (s : State) : (setCmd v s).host = s.host := rfl
@[simp] theorem setCmd_observed (v : Word) (s : State) : (setCmd v s).observed = s.observed := rfl

/-! setGfres (R34.) -/
@[simp] theorem setGfres_state (v : Byte) (s : State) : (setGfres v s).state = s.state := rfl
@[simp] theorem setGfres_key (v : Byte) (s : State) : (setGfres v s).key = s.key := rfl
@[simp] theorem setGfres_cmd (v : Byte) (s : State) : (setGfres v s).cmd = s.cmd := rfl
@[simp] theorem setGfres_busy (v : Byte) (s : State) : (setGfres v s).busy = s.busy := rfl
@[simp] theorem setGfres_kv (v : Byte) (s : State) : (setGfres v s).kv = s.kv := rfl
@[simp] theorem setGfres_err (v : Byte) (s : State) : (setGfres v s).err = s.err := rfl
@[simp] theorem setGfres_ecode (v : Byte) (s : State) : (setGfres v s).ecode = s.ecode := rfl
@[simp] theorem setGfres_nr (v : Byte) (s : State) : (setGfres v s).nr = s.nr := rfl
@[simp] theorem setGfres_nk (v : Byte) (s : State) : (setGfres v s).nk = s.nk := rfl
@[simp] theorem setGfres_gfres (v : Byte) (s : State) : (setGfres v s).gfres = v := rfl
@[simp] theorem setGfres_erk (v : Byte) (s : State) : (setGfres v s).erk = s.erk := rfl
@[simp] theorem setGfres_drk (v : Byte) (s : State) : (setGfres v s).drk = s.drk := rfl
@[simp] theorem setGfres_pending (v : Byte) (s : State) : (setGfres v s).pending = s.pending := rfl
@[simp] theorem setGfres_remaining (v : Byte) (s : State) : (setGfres v s).remaining = s.remaining := rfl
@[simp] theorem setGfres_accepted (v : Byte) (s : State) : (setGfres v s).accepted = s.accepted := rfl
@[simp] theorem setGfres_freeReads (v : Byte) (s : State) : (setGfres v s).freeReads = s.freeReads := rfl
@[simp] theorem setGfres_host (v : Byte) (s : State) : (setGfres v s).host = s.host := rfl
@[simp] theorem setGfres_observed (v : Byte) (s : State) : (setGfres v s).observed = s.observed := rfl

/-! setHost (R27.) -/
@[simp] theorem setHost_state (l : List HostAction) (s : State) : (setHost l s).state = s.state := rfl
@[simp] theorem setHost_key (l : List HostAction) (s : State) : (setHost l s).key = s.key := rfl
@[simp] theorem setHost_cmd (l : List HostAction) (s : State) : (setHost l s).cmd = s.cmd := rfl
@[simp] theorem setHost_busy (l : List HostAction) (s : State) : (setHost l s).busy = s.busy := rfl
@[simp] theorem setHost_kv (l : List HostAction) (s : State) : (setHost l s).kv = s.kv := rfl
@[simp] theorem setHost_err (l : List HostAction) (s : State) : (setHost l s).err = s.err := rfl
@[simp] theorem setHost_ecode (l : List HostAction) (s : State) : (setHost l s).ecode = s.ecode := rfl
@[simp] theorem setHost_nr (l : List HostAction) (s : State) : (setHost l s).nr = s.nr := rfl
@[simp] theorem setHost_nk (l : List HostAction) (s : State) : (setHost l s).nk = s.nk := rfl
@[simp] theorem setHost_gfres (l : List HostAction) (s : State) : (setHost l s).gfres = s.gfres := rfl
@[simp] theorem setHost_erk (l : List HostAction) (s : State) : (setHost l s).erk = s.erk := rfl
@[simp] theorem setHost_drk (l : List HostAction) (s : State) : (setHost l s).drk = s.drk := rfl
@[simp] theorem setHost_pending (l : List HostAction) (s : State) : (setHost l s).pending = s.pending := rfl
@[simp] theorem setHost_remaining (l : List HostAction) (s : State) : (setHost l s).remaining = s.remaining := rfl
@[simp] theorem setHost_accepted (l : List HostAction) (s : State) : (setHost l s).accepted = s.accepted := rfl
@[simp] theorem setHost_freeReads (l : List HostAction) (s : State) : (setHost l s).freeReads = s.freeReads := rfl
@[simp] theorem setHost_host (l : List HostAction) (s : State) : (setHost l s).host = l := rfl
@[simp] theorem setHost_observed (l : List HostAction) (s : State) : (setHost l s).observed = s.observed := rfl

/-! tick (R300.) -/
@[simp] theorem tick_state (s : State) : (tick s).state = s.state := rfl
@[simp] theorem tick_key (s : State) : (tick s).key = s.key := rfl
@[simp] theorem tick_cmd (s : State) : (tick s).cmd = s.cmd := rfl
@[simp] theorem tick_busy (s : State) : (tick s).busy = s.busy := rfl
@[simp] theorem tick_kv (s : State) : (tick s).kv = s.kv := rfl
@[simp] theorem tick_err (s : State) : (tick s).err = s.err := rfl
@[simp] theorem tick_ecode (s : State) : (tick s).ecode = s.ecode := rfl
@[simp] theorem tick_nr (s : State) : (tick s).nr = s.nr := rfl
@[simp] theorem tick_nk (s : State) : (tick s).nk = s.nk := rfl
@[simp] theorem tick_gfres (s : State) : (tick s).gfres = s.gfres := rfl
@[simp] theorem tick_erk (s : State) : (tick s).erk = s.erk := rfl
@[simp] theorem tick_drk (s : State) : (tick s).drk = s.drk := rfl
@[simp] theorem tick_pending (s : State) : (tick s).pending = s.pending := rfl
@[simp] theorem tick_remaining (s : State) : (tick s).remaining = s.remaining - 1 := rfl
@[simp] theorem tick_accepted (s : State) : (tick s).accepted = s.accepted := rfl
@[simp] theorem tick_freeReads (s : State) : (tick s).freeReads = s.freeReads := rfl
@[simp] theorem tick_host (s : State) : (tick s).host = s.host := rfl
@[simp] theorem tick_observed (s : State) : (tick s).observed = s.observed := rfl

end Sys2Proof.Machine
end

