-- ==== Sys2Proof/Laws/Ops.lean ====
section
/-! SUPPORT. What the shared operations can do, said once each; a proof cites these instead of unfolding them. -/

namespace Sys2Proof.Machine

/-- Every latency is positive (R15). -/
theorem latency_pos (i : Instr) (n : Nat) (d : Config.Snapshot) : 0 < latency i n d := by
  cases i <;>
    simp [latency, Config.latNop, Config.latKeyexp, Config.latEncrypt, Config.latDecrypt, Config.latGfmul, Config.latStep]

/-- Acceptance refuses with the first error that applies, or puts the command into flight (R110). -/
theorem accept_cases (i : Instr) (s : State) :
    (∃ e, acceptError i s = some e ∧ accept i s = raiseError e s) ∨
    (acceptError i s = none ∧ accept i s = acceptCommand i s) := by
  rcases h : acceptError i s with _ | e
  · exact .inr ⟨rfl, by simp [accept, h]⟩
  · exact .inl ⟨e, rfl, by simp [accept, h]⟩

/-- A command with nothing in flight runs its acceptance (R110), whatever its effect. -/
theorem runCommand_idle {i : Instr} {done s : State} (h : s.pending = none) :
    runCommand i done s = .next (accept i s) := by
  simp [runCommand, h]

/-- A command in flight completes with its whole effect (R112). -/
theorem runCommand_inFlight {i : Instr} {done s : State} {w : Word} (h : s.pending = some w) :
    runCommand i done s = .next (finishCommand done) := by
  simp [runCommand, h]

/-- What `exec` does with nothing in flight: acceptance, the same for every command (R110). -/
theorem exec_idle (i : Instr) {s : State} (h : s.pending = none) : exec i s = .next (accept i s) := by
  cases i <;> exact runCommand_idle h

/-- What `exec` does with a command in flight: it completes, and no completion touches KEY, CMD, the error record or
the model's own fields but `remaining` (R86, R112, R257). -/
theorem exec_inFlight (i : Instr) {s : State} {w : Word} (h : s.pending = some w) :
    ∃ t, exec i s = .next t ∧ t.pending = none ∧ t.busy = false ∧ t.remaining = 0 ∧
      t.key = s.key ∧ t.cmd = s.cmd ∧ t.err = s.err ∧ t.ecode = s.ecode ∧
      t.accepted = s.accepted ∧ t.freeReads = s.freeReads ∧ t.host = s.host ∧ t.observed = s.observed := by
  cases i with
  | keyexp klen =>
    refine ⟨_, runCommand_inFlight h, ?_⟩
    cases keyParams klen <;> simp
  | nop => exact ⟨_, runCommand_inFlight h, by simp⟩
  | encrypt => exact ⟨_, runCommand_inFlight h, by simp⟩
  | decrypt => exact ⟨_, runCommand_inFlight h, by simp⟩
  | gfmul ga gb => exact ⟨_, runCommand_inFlight h, by simp⟩
  | subbytes => exact ⟨_, runCommand_inFlight h, by simp⟩
  | invsubbytes => exact ⟨_, runCommand_inFlight h, by simp⟩
  | shiftrows => exact ⟨_, runCommand_inFlight h, by simp⟩
  | invshiftrows => exact ⟨_, runCommand_inFlight h, by simp⟩
  | mixcolumns => exact ⟨_, runCommand_inFlight h, by simp⟩
  | invmixcolumns => exact ⟨_, runCommand_inFlight h, by simp⟩
  | addroundkey rnd sch => exact ⟨_, runCommand_inFlight h, by simp⟩

/-- `exec` always answers a next state (R28). -/
theorem exec_next (i : Instr) (s : State) : ∃ t, exec i s = .next t := by
  rcases h : s.pending with _ | w
  · exact ⟨_, exec_idle i h⟩
  · obtain ⟨t, ht, -⟩ := exec_inFlight i h
    exact ⟨t, ht⟩

/-- What acceptance checks does not depend on CMD. -/
theorem acceptError_cmd (i : Instr) (v : Word) (s : State) : acceptError i (setCmd v s) = acceptError i s := by
  cases i <;> rfl

/-- A command word issued to an idle core: illegal, refused by value, or in flight (R110). -/
theorem issueCommand_cases (v : Word) {s : State} (h : s.pending = none) :
    (∃ r, decode v = .error r ∧
      issueCommand v s = .next (raiseError .illegalCommand (setCmd v s))) ∨
    (∃ i e, decode v = .ok i ∧ acceptError i s = some e ∧
      issueCommand v s = .next (raiseError e (setCmd v s))) ∨
    (∃ i, decode v = .ok i ∧ acceptError i s = none ∧
      issueCommand v s = .next (acceptCommand i (setCmd v s))) := by
  rcases hd : decode v with r | i
  · exact .inl ⟨r, rfl, by simp [issueCommand, hd]⟩
  · have he : issueCommand v s = exec i (setCmd v s) := by simp [issueCommand, hd]
    rw [he, exec_idle i (by exact h)]
    rcases accept_cases i (setCmd v s) with ⟨e, ha, hs⟩ | ⟨ha, hs⟩ <;> rw [acceptError_cmd] at ha
    · exact .inr (.inl ⟨i, e, rfl, ha, by rw [hs]⟩)
    · exact .inr (.inr ⟨i, rfl, ha, by rw [hs]⟩)

/-- A write while busy is dropped and recorded, whatever the offset and value (R78, R256). -/
theorem hostWrite_busy (off : BitVec 8) (v : Word) {s : State} (h : s.busy = true) :
    hostWrite off v s = .next (raiseError .writeWhileBusy s) := by
  simp [hostWrite, h]

/-- A write while idle is a write to the register at the offset (R75). -/
theorem hostWrite_idle (off : BitVec 8) (v : Word) {s : State} (h : s.busy = false) :
    hostWrite off v s = writeReg (regAt off) v s := by
  simp [hostWrite, h]

/-- Issuing a word always answers a next state (R28). -/
theorem issueCommand_next (v : Word) (s : State) : ∃ t, issueCommand v s = .next t := by
  rcases hd : decode v with r | i
  · exact ⟨_, by simp [issueCommand, hd]; rfl⟩
  · obtain ⟨t, ht⟩ := exec_next i (setCmd v s)
    exact ⟨t, by simp [issueCommand, hd, ht]⟩

/-- A host write always answers a next state (R28). -/
theorem hostWrite_next (off : BitVec 8) (v : Word) (s : State) : ∃ t, hostWrite off v s = .next t := by
  rcases hb : s.busy with _ | _
  · rw [hostWrite_idle off v hb]
    rcases regAt off with _ | _ | _ | c | i | j | j | _
    · exact issueCommand_next v s
    all_goals exact ⟨_, rfl⟩
  · exact ⟨_, hostWrite_busy off v hb⟩

/-- STATE[c] is at offset 0x04 + c only (R71). -/
theorem regAt_state {off : BitVec 8} {c : Fin 4} (h : regAt off = .state c) : off.toNat = 0x04 + c.val := by
  unfold regAt at h
  dsimp only at h
  split_ifs at h
  cases h
  dsimp only
  omega

/-- KEY[i] is at offset 0x08 + i only (R71). -/
theorem regAt_key {off : BitVec 8} {i : Fin 8} (h : regAt off = .key i) : off.toNat = 0x08 + i.val := by
  unfold regAt at h
  dsimp only at h
  split_ifs at h
  cases h
  dsimp only
  omega

/-- CMD is at offset 0x00 only (R71). -/
theorem regAt_cmd {off : BitVec 8} (h : regAt off = .cmd) : off = 0x00 := by
  unfold regAt at h
  dsimp only at h
  split_ifs at h
  rename_i h0
  exact BitVec.eq_of_toNat_eq h0

/-- No check of acceptance reports WRITE_WHILE_BUSY (R110, R260). -/
theorem acceptError_ne_writeWhileBusy (i : Instr) (s : State) : acceptError i s ≠ some .writeWhileBusy := by
  cases i <;> simp only [acceptError] <;> (repeat' split) <;> exact nofun

/-- The errors of acceptance have the codes 1 to 4 (R250). -/
theorem code_ne_five {e : CmdError} (h : e ≠ .writeWhileBusy) : e.code ≠ 5 := by
  cases e <;> simp_all [CmdError.code]

/-- A read of STATUS is exact, busy or not (R79). -/
@[simp] theorem readIsFree_status (s : State) : readIsFree statusOffset s = false := by
  have h : regAt statusOffset = .status := by decide
  simp [readIsFree, h, Reg.unfixedWhileBusy]

/-- What a poll of WAIT sees is BUSY (R42, R121). -/
@[simp] theorem busyBit_readStatus (s : State) : busyBit (readValue statusOffset s) = s.busy := by
  have h : regAt statusOffset = .status := by decide
  simp only [readValue, readIsFree_status, h, regValue, busyBit, State.statusWord, flagBit]
  rw [if_neg Bool.false_ne_true]
  cases s.busy <;> exact (BitVec.getLsbD_append ..).trans (by simp)

end Sys2Proof.Machine
end

