-- ==== Sys2Proof/Laws/PerInstr.lean ====
section
/-! SUPPORT. Facts about every command as a term, one lemma per constructor: the word it is encoded to. -/

namespace Sys2Proof.Laws.EncodedWord

/-- The encoded word has the opcode of R104 in OP, 0 in the reserved field X, and is legal (R100, R104, R106). -/
def Statement (i : Instr) : Prop :=
  fieldOP (encode i) = opcode i ∧ fieldX (encode i) = 0 ∧ legal (encode i) = true

theorem nop : Statement .nop := by simp [Statement, encode, opcode, legal]
theorem keyexp (klen : Nat) : Statement (.keyexp klen) := by simp [Statement, encode, opcode, legal]
theorem encrypt : Statement .encrypt := by simp [Statement, encode, opcode, legal]
theorem decrypt : Statement .decrypt := by simp [Statement, encode, opcode, legal]
theorem gfmul (ga gb : Byte) : Statement (.gfmul ga gb) := by simp [Statement, encode, opcode, legal]
theorem subbytes : Statement .subbytes := by simp [Statement, encode, opcode, legal]
theorem invsubbytes : Statement .invsubbytes := by simp [Statement, encode, opcode, legal]
theorem shiftrows : Statement .shiftrows := by simp [Statement, encode, opcode, legal]
theorem invshiftrows : Statement .invshiftrows := by simp [Statement, encode, opcode, legal]
theorem mixcolumns : Statement .mixcolumns := by simp [Statement, encode, opcode, legal]
theorem invmixcolumns : Statement .invmixcolumns := by simp [Statement, encode, opcode, legal]
theorem addroundkey (rnd : Nat) (sch : Sched) : Statement (.addroundkey rnd sch) := by
  cases sch <;> simp [Statement, encode, opcode, legal, fieldOfSched]

end Sys2Proof.Laws.EncodedWord
end

