-- ==== Sys2Proof/Laws/Step.lean ====
section
/-! SUPPORT. What a step can do: whose turn it is, and what each turn runs. -/

namespace Sys2Proof.Machine

/-- With nothing in flight the host acts (R112: the engine has no enabled step). -/
theorem step_idle {s : State} (h : s.pending = none) : step s = hostTurn s := by
  simp [step, agentStep, h]

/-- The in-flight command's time has come: it completes (R112). -/
theorem step_engine {s : State} {w : Word} (h : s.pending = some w) (hr : s.remaining = 0) :
    step s = engineTurn w s := by
  simp [step, agentStep, h, hr]

/-- The in-flight command's time has not come: the host acts (R80, R300). -/
theorem step_waiting {s : State} {w : Word} (h : s.pending = some w) (hr : s.remaining ≠ 0) :
    step s = hostTurn (tick s) := by
  simp [step, agentStep, h, hr]

/-- A step is the engine's or the host's turn. -/
theorem step_cases (s : State) :
    (∃ w, s.pending = some w ∧ s.remaining = 0 ∧ step s = engineTurn w s) ∨
    (∃ w, s.pending = some w ∧ s.remaining ≠ 0 ∧ step s = hostTurn (tick s)) ∨
    (s.pending = none ∧ step s = hostTurn s) := by
  rcases h : s.pending with _ | w
  · exact .inr (.inr ⟨rfl, step_idle h⟩)
  · by_cases hr : s.remaining = 0
    · exact .inl ⟨w, rfl, hr, step_engine h hr⟩
    · exact .inr (.inl ⟨w, rfl, hr, step_waiting h hr⟩)

/-- What an action of the host runs: a read, a write, a reset, a poll of WAIT, or a refused bus access. -/
theorem hostAction_cases (a : HostAction) (s : State) :
    (∃ off, (a = .read off ∨ ∃ addr bytes, a = .busRead addr bytes ∧ busOffset addr bytes = .ok off) ∧
      hostAction a s = .next (hostRead off s)) ∨
    (∃ off v, (a = .write off v ∨ ∃ addr bytes, a = .busWrite addr bytes v ∧ busOffset addr bytes = .ok off) ∧
      hostAction a s = hostWrite off v s) ∨
    (a = .reset ∧ hostAction a s = .next (resetCore s)) ∨
    (a = .wait ∧ hostAction a s = .next (hostWait s)) ∨
    (∃ addr bytes r, (a = .busRead addr bytes ∨ ∃ v, a = .busWrite addr bytes v) ∧ busOffset addr bytes = .error r ∧
      hostAction a s = .refused r) := by
  cases a with
  | read off => exact .inl ⟨off, .inl rfl, rfl⟩
  | write off v => exact .inr (.inl ⟨off, v, .inl rfl, rfl⟩)
  | reset => exact .inr (.inr (.inl ⟨rfl, rfl⟩))
  | wait => exact .inr (.inr (.inr (.inl ⟨rfl, rfl⟩)))
  | busRead addr bytes =>
    rcases h : busOffset addr bytes with r | off
    · exact .inr (.inr (.inr (.inr ⟨addr, bytes, r, .inl rfl, h, by simp [hostAction, h]⟩)))
    · exact .inl ⟨off, .inr ⟨addr, bytes, rfl, h⟩, by simp [hostAction, h]⟩
  | busWrite addr bytes v =>
    rcases h : busOffset addr bytes with r | off
    · exact .inr (.inr (.inr (.inr ⟨addr, bytes, r, .inr ⟨v, rfl⟩, h, by simp [hostAction, h]⟩)))
    · exact .inr (.inl ⟨off, v, .inr ⟨addr, bytes, rfl, h⟩, by simp [hostAction, h]⟩)

/-- What a host write does: dropped and recorded while busy; else a command issued, the error record cleared, one word
of STATE or KEY written, or nothing (R75, R78). -/
theorem hostWrite_cases (off : BitVec 8) (v : Word) (s : State) :
    (s.busy = true ∧ hostWrite off v s = .next (raiseError .writeWhileBusy s)) ∨
    (s.busy = false ∧
      ((regAt off = .cmd ∧ hostWrite off v s = issueCommand v s) ∨
       (regAt off = .status ∧ hostWrite off v s = .next (if clearBit v then clearError s else s)) ∨
       (∃ c, regAt off = .state c ∧ hostWrite off v s = .next (setStateWord c v s)) ∨
       (∃ i, regAt off = .key i ∧ hostWrite off v s = .next (setKeyWord i v s)) ∨
       hostWrite off v s = .next s)) := by
  rcases hb : s.busy with _ | _
  · refine .inr ⟨rfl, ?_⟩
    rw [hostWrite_idle off v hb]
    rcases regAt off with _ | _ | _ | c | i | j | j | _
    · exact .inl ⟨rfl, rfl⟩
    · exact .inr (.inl ⟨rfl, rfl⟩)
    · exact .inr (.inr (.inr (.inr rfl)))
    · exact .inr (.inr (.inl ⟨c, rfl, rfl⟩))
    · exact .inr (.inr (.inr (.inl ⟨i, rfl, rfl⟩)))
    all_goals exact .inr (.inr (.inr (.inr rfl)))
  · exact .inl ⟨rfl, hostWrite_busy off v hb⟩

/-- A poll of WAIT changes no register; it leaves the WAIT in place exactly when STATUS read busy (R121). -/
theorem hostWait_host (s : State) :
    (hostWait s).host = if busyBit (readValue statusOffset s) then .wait :: s.host else s.host := by
  unfold hostWait
  dsimp only
  split <;> simp

/-- A poll of WAIT changes what the host has read and has to do, and no register. -/
theorem hostWait_frame (s : State) :
    ∃ l o f, hostWait s = { s with host := l, observed := o, freeReads := f } := by
  unfold hostWait
  dsimp only
  split <;> exact ⟨_, _, _, rfl⟩

/-- What the host's turn can do when it answers a next state: nothing, a read, a write, a reset, or a poll of WAIT. -/
theorem hostTurn_cases {s t : State} (h : hostTurn s = .next t) :
    (s.host = [] ∧ t = s) ∨
    ∃ a rest, s.host = a :: rest ∧
      ((∃ off, (a = .read off ∨ ∃ addr bytes, a = .busRead addr bytes ∧ busOffset addr bytes = .ok off) ∧
          t = hostRead off (setHost rest s)) ∨
       (∃ off v, (a = .write off v ∨ ∃ addr bytes, a = .busWrite addr bytes v ∧ busOffset addr bytes = .ok off) ∧
          hostWrite off v (setHost rest s) = .next t) ∨
       (a = .reset ∧ t = resetCore (setHost rest s)) ∨
       (a = .wait ∧ t = hostWait (setHost rest s))) := by
  unfold hostTurn at h
  split at h
  · rename_i hh
    cases h
    exact .inl ⟨hh, rfl⟩
  · rename_i a rest hh
    refine .inr ⟨a, rest, hh, ?_⟩
    rcases hostAction_cases a (setHost rest s) with
      ⟨off, ha, e⟩ | ⟨off, v, ha, e⟩ | ⟨ha, e⟩ | ⟨ha, e⟩ | ⟨_, _, r, _, _, e⟩ <;> rw [e] at h
    · cases h
      exact .inl ⟨off, ha, rfl⟩
    · exact .inr (.inl ⟨off, v, ha, h⟩)
    · cases h
      exact .inr (.inr (.inl ⟨ha, rfl⟩))
    · cases h
      exact .inr (.inr (.inr ⟨ha, rfl⟩))
    · cases h

/-- A run that starts with a step to s'. -/
theorem runSteps_next {s s' : State} (h : step s = .next s') (k : Nat) : runSteps (k + 1) s = runSteps k s' := by
  simp only [runSteps, Host.Core.run, core, h]

/-- Two runs, one after the other. -/
theorem runSteps_trans {s u : State} : ∀ {m : Nat}, runSteps m s = .next u → ∀ n, runSteps (m + n) s = runSteps n u
  | 0, h, n => by
    cases h
    rw [Nat.zero_add]
  | m + 1, h, n => by
    rcases hs : step s with s' | r | r
    · rw [runSteps_next hs] at h
      rw [Nat.add_right_comm, runSteps_next hs]
      exact runSteps_trans h n
    · simp [runSteps, Host.Core.run, core, hs] at h
    · simp [runSteps, Host.Core.run, core, hs] at h

/-- A property that every step keeps holds after every run. -/
theorem runSteps_keeps {P : State → Prop} (hstep : ∀ s t, P s → step s = .next t → P t) :
    ∀ (n : Nat) (s t : State), P s → runSteps n s = .next t → P t
  | 0, s, t, hs, h => by
    cases h
    exact hs
  | n + 1, s, t, hs, h => by
    rcases h1 : step s with s' | r | r
    · rw [runSteps_next h1] at h
      exact runSteps_keeps hstep n s' t (hstep s s' hs h1) h
    · simp [runSteps, Host.Core.run, core, h1] at h
    · simp [runSteps, Host.Core.run, core, h1] at h

end Sys2Proof.Machine
end

