-- ==== Sys2Proof/Tests/Slice0.lean ====
section
/-! SUPPORT. The model's own tests, each on values from the spec's vectors (95_test_vectors.md) or its rules, and a witness
for the hypotheses of every statement that has some. -/

namespace Sys2Proof.Tests

open Sys2Proof.Machine

/-! ## Well-formedness: an ill-formed term for each check -/

theorem test_wellFormed_refuses_keyexp_256 : (Instr.keyexp 256).wellFormed = false := by decide
theorem test_wellFormed_refuses_addroundkey_256 : (Instr.addroundkey 256 .dec).wellFormed = false := by decide
theorem test_wellFormed_keyexp_255 : (Instr.keyexp 255).wellFormed = true := by decide

/-! ## Decoding: each command's word, written out from R100 and R104 as X, B, A, OP -/

theorem test_decode_nop : decode 0b00000000_00000000_00000000_00000000 = .ok .nop := by decide
theorem test_decode_keyexp : decode 0b00000000_00000000_00011000_00000001 = .ok (.keyexp 24) := by decide
theorem test_decode_encrypt : decode 0b00000000_00000000_00000000_00000010 = .ok .encrypt := by decide
theorem test_decode_decrypt : decode 0b00000000_00000000_00000000_00000011 = .ok .decrypt := by decide
theorem test_decode_gfmul : decode 0b00000000_10000011_01010111_00000100 = .ok (.gfmul 0x57 0x83) := by decide
theorem test_decode_subbytes : decode 0b00000000_00000000_00000000_00010000 = .ok .subbytes := by decide
theorem test_decode_invsubbytes : decode 0b00000000_00000000_00000000_00010001 = .ok .invsubbytes := by decide
theorem test_decode_shiftrows : decode 0b00000000_00000000_00000000_00010010 = .ok .shiftrows := by decide
theorem test_decode_invshiftrows : decode 0b00000000_00000000_00000000_00010011 = .ok .invshiftrows := by decide
theorem test_decode_mixcolumns : decode 0b00000000_00000000_00000000_00010100 = .ok .mixcolumns := by decide
theorem test_decode_invmixcolumns : decode 0b00000000_00000000_00000000_00010101 = .ok .invmixcolumns := by decide
theorem test_decode_addroundkey_enc :
    decode 0b00000000_00000000_00000001_00010110 = .ok (.addroundkey 1 .enc) := by decide
theorem test_decode_addroundkey_dec :
    decode 0b00000000_00000001_00001010_00010110 = .ok (.addroundkey 10 .dec) := by decide
theorem test_decode_rejects_opcode_0f : decode 0x0000000f = .error .unassignedOpcode := by decide
theorem test_decode_rejects_opcode_17 : decode 0x00000017 = .error .unassignedOpcode := by decide
theorem test_decode_rejects_B_of_encrypt : decode 0x00010002 = .error .operandB := by decide
theorem test_decode_rejects_X_of_gfmul : decode 0x01835704 = .error .reservedX := by decide
theorem test_decodeTableWord_addroundkey : decodeTableWord 32 0x00000116 = some (.addroundkey 1 .enc) := by decide
theorem test_decodeTableWord_cuts_to_nbits : decodeTableWord 8 0x01000016 = some (.addroundkey 0 .enc) := by decide

/-! ## Small states -/

/-- What a next state holds, none for a fault or a refusal. -/
def after {α : Type} (o : Host.Outcome State Fault Refusal) (f : State → α) : Option α :=
  match o with
  | .next t => some (f t)
  | .fault _ => none
  | .refused _ => none

/-- State s with command i in flight and its window over. -/
def flying (i : Instr) (s : State) : State :=
  { s with cmd := encode i, pending := some (encode i), busy := true, remaining := 0 }

/-- The reset state with a block in STATE. -/
def holding (b : Block) : State := { State.reset with state := b }

/-- The reset state with the actions of a host. -/
def hosted (l : List HostAction) : State := { State.reset with host := l }

/-- The reset state with the all-zero 128-bit key expanded. -/
def keyed : State := expandKey 4 10 State.reset

/-- A command in flight with one host step left in its window, and the host's actions. -/
def waiting (i : Instr) (l : List HostAction) (s : State) : State := { flying i s with remaining := 1, host := l }

/-- The block of the spec's examples. -/
def exampleBlock : Block := #v[0x00112233, 0x44556677, 0x8899aabb, 0xccddeeff]

/-! ## Commands at completion (95_test_vectors.md sections 2.1 and 2.4) -/

theorem test_gfmul_G9 : after (exec (.gfmul 0x57 0x83) (flying (.gfmul 0x57 0x83) State.reset)) (·.gfres) = some 0xc1 := by
  decide
theorem test_gfmul_G13 : gfmul 0xff 0xff = 0x13 := by decide
theorem test_gfmul_trace : gfIterate 4 ⟨0, 0x57, 0x83⟩ = ⟨0xf9, 0x07, 0x08⟩ := by decide
theorem test_nop_goes_idle : after (exec .nop (flying .nop State.reset)) (·.busy) = some false := by decide
theorem test_subbytes_S1 : after (exec .subbytes (flying .subbytes (holding exampleBlock))) (·.state) =
    some #v[0x638293c3, 0x1bfc33f5, 0xc4eeacea, 0x4bc12816] := by decide +kernel
theorem test_invsubbytes_S6 : after (exec .invsubbytes (flying .invsubbytes (holding exampleBlock))) (·.state) =
    some #v[0x52e39466, 0x86edd302, 0x97f962fe, 0x27c9997d] := by decide +kernel
theorem test_shiftrows_S7 :
    after (exec .shiftrows (flying .shiftrows (holding #v[0x00010203, 0x04050607, 0x08090a0b, 0x0c0d0e0f]))) (·.state) =
      some #v[0x00050a0f, 0x04090e03, 0x080d0207, 0x0c01060b] := by decide +kernel
theorem test_invshiftrows_S10 :
    after (exec .invshiftrows (flying .invshiftrows (holding #v[0x00010203, 0x04050607, 0x08090a0b, 0x0c0d0e0f])))
      (·.state) = some #v[0x000d0a07, 0x04010e0b, 0x0805020f, 0x0c090603] := by decide +kernel
theorem test_mixcolumns_S12 :
    after (exec .mixcolumns (flying .mixcolumns (holding #v[0xdb135345, 0xf20a225c, 0xd4d4d4d5, 0x2d26314c]))) (·.state) =
      some #v[0x8e4da1bc, 0x9fdc589d, 0xd5d5d7d6, 0x4d7ebdf8] := by decide +kernel
theorem test_invmixcolumns_S16 :
    after (exec .invmixcolumns (flying .invmixcolumns (holding #v[0xdb135345, 0xf20a225c, 0xd4d4d4d5, 0x2d26314c])))
      (·.state) = some #v[0x32a41d55, 0xaec36982, 0xddd9dfda, 0xa05050d6] := by decide +kernel

/-- The state with the 128-bit key 000102..0f of K1 in KEY and the example block in STATE. -/
def stagedK1 : State :=
  { holding exampleBlock with key := #v[0x00010203, 0x04050607, 0x08090a0b, 0x0c0d0e0f, 0, 0, 0, 0] }

/-- The state with K1 expanded and the example block in STATE. -/
def keyedK1 : State := expandKey 4 10 stagedK1

theorem test_keyexp_K1 : after (exec (.keyexp 16) (flying (.keyexp 16) stagedK1))
    (fun t => ((List.range 8).map fun j => t.erk.getD (36 + j) 0, t.drk.getD 4 0, t.statusWord)) =
      some ([0x549932d1, 0xf0855768, 0x1093ed9c, 0xbe2c974e, 0x13111d7f, 0xe3944a17, 0xf307a78b, 0x4d2b30c5],
        0x13aa29be, 0x00004a02) := by decide +kernel
theorem test_keyexp_subword_step_K3 :
    0x10111213 ^^^ scheduleTerm 8 12 0xa572c09c = 0x1651a8cd := by decide
theorem test_addroundkey_A1 : after (exec (.addroundkey 0 .enc) (flying (.addroundkey 0 .enc) keyedK1)) (·.state) =
    some #v[0x00102030, 0x40506070, 0x8090a0b0, 0xc0d0e0f0] := by decide +kernel
theorem test_addroundkey_A4 :
    after (exec (.addroundkey 1 .dec) (flying (.addroundkey 1 .dec) { keyedK1 with state := Vector.replicate 4 0 }))
      (·.state) = some #v[0x13aa29be, 0x9c8faff6, 0xf770f580, 0x00f7bf03] := by decide +kernel
theorem test_encrypt_K1 : after (exec .encrypt (flying .encrypt keyedK1)) (·.state) =
    some #v[0x69c4e0d8, 0x6a7b0430, 0xd8cdb780, 0x70b4c55a] := by decide +kernel
theorem test_decrypt_K1 :
    after (exec .decrypt
      (flying .decrypt { keyedK1 with state := #v[0x69c4e0d8, 0x6a7b0430, 0xd8cdb780, 0x70b4c55a] })) (·.state) =
      some exampleBlock := by decide +kernel

/-! ## Acceptance, errors and the host's accesses (95_test_vectors.md section 2.6) -/

theorem test_I11_illegal_opcode : after (step (hosted [.write 0x00 0x00000005])) (fun t => (t.cmd, t.statusWord)) =
    some (0x00000005, 0x00000034) := by decide
theorem test_K5_keyexp_zero : after (step (hosted [.write 0x00 0x00000001])) (·.statusWord) = some 0x00000014 := by decide
theorem test_K10_illegal_before_length : after (step (hosted [.write 0x00 0x00011001])) (·.ecode) = some 3 := by decide
theorem test_I14_no_key_before_range : after (step (hosted [.write 0x00 0x00000d16])) (·.ecode) = some 2 := by decide
theorem test_A5_round_out_of_range :
    after (step { keyed with host := [.write 0x00 0x00000b16] }) (·.ecode) = some 4 := by decide
theorem test_nop_accepted : after (step (hosted [.write 0x00 0x00000000])) (fun t => (t.busy, t.pending)) =
    some (true, some 0) := by decide
theorem test_I7_clear_while_busy :
    after (step (waiting .nop [.write 0x01 0x00000004] State.reset)) (·.statusWord) = some 0x00000055 := by decide
theorem test_I6_clear :
    after (step { hosted [.write 0x01 0x00000004] with err := true, ecode := 2 }) (·.statusWord) = some 0 := by decide
theorem test_I16_first_error_kept :
    after (step { hosted [.write 0x00 0x00000002] with err := true, ecode := 1 }) (·.statusWord) =
      some 0x00000014 := by decide
theorem test_I4_read_only : after (step (hosted [.write 0x40 0xffffffff])) (fun t => (t.erk.get 0, t.err)) =
    some (0, false) := by decide
theorem test_I10_exact_status_while_busy :
    after (step (waiting .encrypt [.read 0x01] keyed)) (fun t => t.observed.map (·.value)) = some [0x00004a03] := by decide
theorem test_I18_reset_while_busy :
    after (step (waiting .encrypt [.reset] keyed)) (fun t => (t.pending, t.kv, t.erk.get 4)) = some (none, false, 0) := by
  decide
theorem test_bus_halfword_refused :
    step (hosted [.busRead 0 2]) = .refused .accessWidth := by rfl
theorem test_bus_misaligned_refused :
    step (hosted [.busWrite 2 4 0]) = .refused .misaligned := by rfl
theorem test_withFetchWord_issues_encrypt :
    after (step (State.reset.withFetchWord 32 0x00000002)) (fun t => (t.cmd, t.ecode)) = some (0x00000002, 2) := by decide
theorem test_withFetchWord_issues_mixcolumns :
    after (step (State.reset.withFetchWord 32 0x00000014)) (·.pending) = some (some 0x00000014) := by decide
theorem test_wait_goes_on_while_busy :
    after (step (waiting .nop [.wait] State.reset)) (·.host) = some [.wait] := by decide
theorem test_setkey_272_issues_a_refused_length : keyParams (keyexpLength 272) = none := keyexpLength_refused (by decide)
theorem test_setkey_24_issues_its_length : setkey (List.replicate 24 0) =
    .write 0x01 4 :: (List.range 6).map (fun i => HostAction.write (BitVec.ofNat 8 (8 + i)) 0) ++
      [.write 0x00 0x00001801, .wait] := by decide
theorem test_asm_line : lineText (.write 0x08 0x00010203) = some "WR KEY0, 0x00010203" := by decide
theorem test_asm_command : commandText (.gfmul 0x57 0x83) = "GFMUL 0x57, 0x83" := by decide

/-! ## Witnesses: for each statement with hypotheses, states and operands that meet them, at boundary values -/

/-- An outcome of which `after` reads a value is a next state. -/
theorem next_of_after {α : Type} {o : Host.Outcome State Fault Refusal} {f : State → α} {x : α} (h : after o f = some x) :
    ∃ t, o = .next t ∧ f t = x := by
  cases o <;> simp_all [after]

theorem reset_meets_inv : CoreInv State.reset := by
  constructor <;> simp [State.reset]

theorem keyed_meets_inv : CoreInv keyed :=
  ⟨nofun, fun _ => ⟨State.reset.key, 16, 4, 10, rfl, rfl, rfl, rfl, rfl⟩, rfl, fun _ => rfl, nofun, nofun⟩

/-- The state with a key of 192 bits expanded. -/
def keyed192 : State := expandKey 6 12 State.reset

theorem keyed192_meets_inv : CoreInv keyed192 :=
  ⟨nofun, fun _ => ⟨State.reset.key, 24, 6, 12, rfl, rfl, rfl, rfl, rfl⟩, rfl, fun _ => rfl, nofun, nofun⟩

/-- The state with a key of 256 bits expanded. -/
def keyed256 : State := expandKey 8 14 State.reset

theorem keyed256_meets_inv : CoreInv keyed256 :=
  ⟨nofun, fun _ => ⟨State.reset.key, 32, 8, 14, rfl, rfl, rfl, rfl, rfl⟩, rfl, fun _ => rfl, nofun, nofun⟩

/-- The host's actions are no part of the invariant. -/
theorem inv_withHost {s : State} (h : CoreInv s) (l : List HostAction) : CoreInv { s with host := l } :=
  ⟨h.noKey, h.keyed, h.busyIff, h.noError, h.errorCode, fun w hw => by
    obtain ⟨hc, i, hd, ha⟩ := h.inFlight w hw
    exact ⟨hc, i, hd, by cases i <;> exact ha⟩⟩

/-- A command that acceptance would not refuse may be in flight, whatever its window and the host. -/
theorem inv_flying {s : State} {i : Instr} (h : CoreInv s) (hd : decode (encode i) = .ok i) (ha : acceptError i s = none)
    (n : Nat) (l : List HostAction) : CoreInv { flying i s with remaining := n, host := l } :=
  ⟨h.noKey, h.keyed, rfl, h.noError, h.errorCode, fun w hw => by
    cases hw
    exact ⟨rfl, i, hd, by cases i <;> exact ha⟩⟩

theorem witness_DecodeOfEncodeIsTheCommand :
    (Instr.keyexp 0).wellFormed = true ∧ (Instr.keyexp 255).wellFormed = true ∧
    (Instr.addroundkey 0 .enc).wellFormed = true ∧ (Instr.addroundkey 255 .dec).wellFormed = true := by decide

theorem witness_EncodeOfDecodeIsTheWord :
    decode 0x0001ff16 = .ok (.addroundkey 255 .dec) ∧ decode 0x0000ff01 = .ok (.keyexp 255) := by decide

theorem witness_StepRunsTheDecodedCommand :
    (let s := hosted [.write 0x00 0x00002001]
     decode 0x00002001 = .ok (.keyexp 32) ∧ s.busy = false ∧ s.pending = none ∧ s.host = .write 0x00 0x00002001 :: []) ∧
    (let s := flying (.addroundkey 10 .dec) keyed
     decode 0x00010a16 = .ok (.addroundkey 10 .dec) ∧ s.pending = some 0x00010a16 ∧ s.remaining = 0) := by decide

theorem witness_FetchWordStepIssuesTheRow :
    (0x0001ff16 < 2 ^ 32 ∧ decodeTableWord 32 0x0001ff16 = some (.addroundkey 255 .dec)) ∧
    (0 < 2 ^ 32 ∧ decodeTableWord 32 0 = some .nop) := by decide

theorem witness_CompletionIsOneAtomicStep :
    let s := flying .encrypt keyed
    s.pending = some 0x00000002 ∧ s.remaining = 0 ∧ decode 0x00000002 = .ok .encrypt := by decide

theorem witness_AcceptanceChecksInOrder_idle :
    State.reset.busy = false ∧ State.reset.pending = none ∧ keyed.busy = false ∧ keyed.pending = none := by decide

theorem witness_AcceptanceChecksInOrder_illegal : legal 0x01000000 = false ∧ legal 0x00020016 = false := by decide

theorem witness_AcceptanceChecksInOrder_keySize :
    legal 0x00000f01 = true ∧ BitVec.extractLsb' 0 8 (0x00000f01 : Word) = 0x01#8 ∧
    (BitVec.extractLsb' 8 8 (0x00000f01 : Word)).toNat ∉ [16, 24, 32] ∧
    legal 0x00002101 = true ∧ (BitVec.extractLsb' 8 8 (0x00002101 : Word)).toNat ∉ [16, 24, 32] := by decide

theorem witness_AcceptanceChecksInOrder_noKey :
    legal 0x0000ff16 = true ∧ (BitVec.extractLsb' 0 8 (0x0000ff16 : Word)).toNat ∈ [0x02, 0x03, 0x16] ∧
    State.reset.kv = false := by decide

theorem witness_AcceptanceChecksInOrder_round :
    legal 0x00000b16 = true ∧ keyed.kv = true ∧ BitVec.extractLsb' 0 8 (0x00000b16 : Word) = 0x16#8 ∧
    keyed.nr.toNat < (BitVec.extractLsb' 8 8 (0x00000b16 : Word)).toNat := by decide

theorem witness_AcceptanceChecksInOrder_accepted :
    legal 0x00000a16 = true ∧ keyed.kv = true ∧
    ¬ keyed.nr.toNat < (BitVec.extractLsb' 8 8 (0x00000a16 : Word)).toNat ∧ legal 0x00002001 = true ∧
    (BitVec.extractLsb' 8 8 (0x00002001 : Word)).toNat ∈ [16, 24, 32] := by decide

/-- RND = NR, the last round, and every key length. -/
theorem witness_AcceptedCommandGoesIntoFlight :
    keyed.pending = none ∧ keyed.kv = true ∧ 10 ≤ keyed.nr.toNat ∧ (∀ klen, Instr.addroundkey 10 .dec ≠ .keyexp klen) ∧
    State.reset.pending = none ∧ (∀ klen, Instr.keyexp 32 = .keyexp klen → klen = 16 ∨ klen = 24 ∨ klen = 32) := by
  refine ⟨by decide, by decide, by decide, nofun, by decide, fun klen h => ?_⟩
  cases h
  decide

theorem witness_ErrorRecordKeepsTheFirst :
    State.reset.err = false ∧ (raiseError .noKey State.reset).err = true := by decide

theorem witness_WrongKeyLengthIsRefused :
    State.reset.pending = none ∧ (∀ klen ∈ [0, 4, 15, 17, 33, 255], klen ≠ 16 ∧ klen ≠ 24 ∧ klen ≠ 32) := by decide

theorem witness_NoKeyIsRefused : State.reset.pending = none ∧ State.reset.kv = false := by decide

theorem witness_RoundOutOfRangeIsRefused :
    keyed.pending = none ∧ keyed.kv = true ∧ keyed.nr.toNat < 11 ∧ 10 = keyed.nr.toNat := by decide

theorem witness_StepCommandsNeedNoKey :
    State.reset.pending = none ∧
    after (exec (.addroundkey 10 .enc) keyed) (·.pending) = some (some 0x00000a16) ∧ keyed.pending = none := by decide

theorem witness_ErrorDoesNotBlockCommands :
    after (hostWrite 0x00 0x00000014 State.reset) (·.busy) = some true ∧
    after (hostWrite 0x00 0x00000014 { State.reset with err := true }) (·.busy) = some true ∧
    (flying .mixcolumns State.reset).pending = some 0x00000014 := by decide

theorem witness_IdleReadsGiveTheRegisters :
    ∀ off ∈ [0x00#8, 0x01#8, 0x02#8, 0x03#8, 0x04#8, 0x07#8, 0x08#8, 0x0f#8, 0x10#8, 0x3f#8, 0x40#8, 0x7b#8, 0x7c#8,
        0x7f#8, 0x80#8, 0xbb#8, 0xbc#8, 0xff#8],
      let s := hosted [.read off]
      s.busy = false ∧ s.pending = none ∧ s.host = .read off :: [] := by decide

theorem witness_BusyReadsAreFreeOrExact :
    ∀ off ∈ [0x00#8, 0x01#8, 0x02#8, 0x03#8, 0x04#8, 0x07#8, 0x08#8, 0x0f#8, 0x10#8, 0x3f#8, 0x40#8, 0x7b#8, 0x7c#8,
        0x7f#8, 0x80#8, 0xbb#8, 0xbc#8, 0xff#8],
      let s := waiting .encrypt [.read off] keyed
      s.busy = true ∧ s.pending = some 0x00000002 ∧ s.remaining = 0 + 1 ∧ s.host = .read off :: [] := by decide

theorem witness_IdleWritesGoToTheRegisters :
    ∀ off ∈ [0x02#8, 0x03#8, 0x04#8, 0x07#8, 0x08#8, 0x0f#8, 0x10#8, 0x40#8, 0xff#8],
      let s := hosted [.write off 0x01234567]
      s.busy = false ∧ s.pending = none ∧ s.host = .write off 0x01234567 :: [] := by decide

theorem witness_StatusWriteClearsTheRecord :
    State.reset.busy = false ∧ (flying .nop State.reset).busy = true ∧
    BitVec.getLsbD (0x00000004 : Word) 2 = true ∧ BitVec.getLsbD (0xfffffffb : Word) 2 = false := by decide

theorem witness_WriteWhileBusyIsDropped :
    ∀ off ∈ [0x00#8, 0x01#8, 0x04#8, 0x08#8, 0xff#8],
      let s := waiting .decrypt [.write off 0x00000004] keyed
      s.busy = true ∧ s.pending = some 0x00000003 ∧ s.remaining = 0 + 1 ∧ s.host = .write off 0x00000004 :: [] := by decide

theorem witness_BusAccessesAreWordsOrRefused : (2 ≠ 4 ∨ 0 % 4 ≠ 0) ∧ (4 ≠ 4 ∨ 3 % 4 ≠ 0) := by decide

theorem witness_ResetPutsEveryRegisterToItsResetValue :
    (hosted [.reset]).host = .reset :: [] ∧ (hosted [.reset]).pending = none ∧
    (waiting .encrypt [.reset] keyed).host = .reset :: [] ∧ (waiting .encrypt [.reset] keyed).remaining ≠ 0 := by decide

theorem witness_NopCompletes : (flying .nop State.reset).pending = some (encode .nop) := rfl

theorem witness_GfmulCompletes : (flying (.gfmul 0xff 0x00) State.reset).pending = some (encode (.gfmul 0xff 0x00)) := rfl

theorem witness_SubstitutionCommandsComplete :
    (flying .subbytes State.reset).pending = some (encode .subbytes) ∧
    (flying .invsubbytes State.reset).pending = some (encode .invsubbytes) := ⟨rfl, rfl⟩

theorem witness_RowRotationCommandsComplete :
    (flying .shiftrows State.reset).pending = some (encode .shiftrows) ∧
    (flying .invshiftrows State.reset).pending = some (encode .invshiftrows) ∧
    (∃ r c d : Fin 4, d.val = (c.val + r.val) % 4 ∧ r = 3 ∧ c = 3) ∧
    (∃ r c d : Fin 4, c.val = (d.val + r.val) % 4 ∧ r = 3 ∧ c = 0) := by decide

theorem witness_ColumnMixCommandsComplete :
    (flying .mixcolumns State.reset).pending = some (encode .mixcolumns) ∧
    (flying .invmixcolumns State.reset).pending = some (encode .invmixcolumns) := ⟨rfl, rfl⟩

theorem witness_AddRoundKeyCompletes :
    (flying (.addroundkey 14 .dec) keyed256).pending = some (encode (.addroundkey 14 .dec)) ∧
    (∃ (c : Fin 4) (j : Fin 60), j.val = 4 * 14 + c.val ∧ j.val = 59) := by decide

theorem witness_KeyexpCompletes :
    ∀ p ∈ [(16, 4, 10), (24, 6, 12), (32, 8, 14)],
      (flying (.keyexp p.1) State.reset).pending = some (encode (.keyexp p.1)) := by decide

theorem witness_EncryptCompletes : (flying .encrypt keyed).pending = some (encode .encrypt) := rfl

theorem witness_DecryptCompletes : (flying .decrypt keyed).pending = some (encode .decrypt) := rfl

/-- A completion and a refused command, both from states that meet the invariant. -/
theorem witness_EveryStepKeepsTheInvariant :
    (∃ s t, CoreInv s ∧ step s = .next t ∧ s.busy = true ∧ t.busy = false) ∧
    (∃ s t, CoreInv s ∧ step s = .next t ∧ t.err = true) := by
  refine ⟨?_, ?_⟩
  · obtain ⟨t, ht, hb⟩ := next_of_after (o := step (flying (.keyexp 16) State.reset)) (f := (·.busy)) (x := false) (by decide)
    exact ⟨_, t, inv_flying reset_meets_inv (by decide) (by decide) 0 [], ht, rfl, hb⟩
  · obtain ⟨t, ht, hb⟩ := next_of_after (o := step (hosted [.write 0x00 0x00000002])) (f := (·.err)) (x := true) (by decide)
    exact ⟨_, t, inv_withHost reset_meets_inv _, ht, hb⟩

/-- While a command is in flight a host with nothing to do lets its window go by. -/
theorem run_window {w : Word} : ∀ (n : Nat) (s : State), s.pending = some w → s.remaining = n → s.host = [] →
    runSteps n s = .next { s with remaining := 0 }
  | 0, s, _, hr, _ => by cases s; cases hr; rfl
  | n + 1, s, hp, hr, hh => by
    have h1 : step s = .next (tick s) := by
      rw [step_waiting hp (by omega)]
      simp [hostTurn, hh]
    rw [runSteps_next h1]
    exact run_window n (tick s) hp (by simp [hr]) hh

/-- From reset, a host that issues KEYEXP 16 brings the machine to a state with a key; and the states of the other
clauses are one or no step away. -/
theorem witness_ReachableStatesMeetR53 :
    (∃ n s, runSteps n { State.reset with host := [.write 0x00 0x00001001] } = .next s ∧ s.kv = true ∧ s.nr = 10) ∧
    (∃ s, runSteps 0 { State.reset with host := [] } = .next s ∧ s.kv = false ∧ s.err = false ∧ s.busy = false) ∧
    (∃ s, runSteps 1 { State.reset with host := [.write 0x00 0x00001001] } = .next s ∧ s.busy = true) := by
  obtain ⟨u, hu, hv⟩ := next_of_after (o := step { State.reset with host := [.write 0x00 0x00001001] })
    (f := fun t => (t.pending, t.busy, t.host)) (x := (some 0x00001001, true, [])) (by decide)
  have hp : u.pending = some 0x00001001 := congrArg Prod.fst hv
  have hb : u.busy = true := congrArg (·.2.1) hv
  have hh : u.host = [] := congrArg (·.2.2) hv
  refine ⟨?_, ⟨_, rfl, rfl, rfl, rfl⟩, u, runSteps_next hu 0, hb⟩
  let v : State := { u with remaining := 0 }
  have hv : v.pending = some 0x00001001 := hp
  have hlast : step v = .next (finishCommand (expandKey 4 10 v)) := by
    have hd : decode 0x00001001 = .ok (.keyexp 16) := by decide
    rw [step_engine hv rfl]
    simp only [engineTurn, hd]
    exact runCommand_inFlight hv
  refine ⟨u.remaining + 1 + 1, finishCommand (expandKey 4 10 v), ?_, rfl, rfl⟩
  rw [Nat.add_right_comm, runSteps_next hu, runSteps_trans (run_window u.remaining u hp rfl hh) 1]
  exact runSteps_next hlast 0

theorem witness_NoStepFaultsAndOnlyBusAccessesAreRefused :
    CoreInv keyed ∧ step (hosted [.busRead 0 2]) = .refused .accessWidth ∧
    step (hosted [.busWrite 2 4 0]) = .refused .misaligned ∧
    step (hosted [.busRead (Config.regBase + 4 * 256) 4]) = .refused .outsideRegisterSpace :=
  ⟨keyed_meets_inv, rfl, rfl, by
    have h : ∀ addr, Config.regBase + 4 * 256 ≤ addr → addr % 4 = 0 →
        busOffset addr 4 = .error .outsideRegisterSpace := fun addr h1 h2 => by
      simp only [busOffset, h2]
      rw [if_neg (by decide), if_neg (by decide), if_neg (by omega)]
    have hs : ∀ addr r, busOffset addr 4 = .error r → step (hosted [.busRead addr 4]) = .refused r := fun addr r h => by
      rw [step_idle rfl]
      simp only [hosted, hostTurn, hostAction, h]
    exact hs _ _ (h _ (Nat.le_refl _) (by unfold Config.regBase; omega))⟩

/-- A step of each of the three kinds. -/
theorem witness_OnlyKeyexpAndResetChangeTheKeySchedules :
    (∃ s t, CoreInv s ∧ step s = .next t ∧ s.kv = false ∧ t.kv = true) ∧
    (∃ s t, CoreInv s ∧ step s = .next t ∧ s.kv = true ∧ t.kv = false) ∧
    (∃ s t, CoreInv s ∧ step s = .next t ∧ s.kv = true ∧ t.kv = true ∧ t.err = true) := by
  refine ⟨?_, ?_, ?_⟩
  · obtain ⟨t, ht, hb⟩ := next_of_after (o := step (flying (.keyexp 32) State.reset)) (f := (·.kv)) (x := true) (by decide)
    exact ⟨_, t, inv_flying reset_meets_inv (by decide) (by decide) 0 [], ht, rfl, hb⟩
  · obtain ⟨t, ht, hb⟩ := next_of_after (o := step { keyed with host := [.reset] }) (f := (·.kv)) (x := false) (by decide)
    exact ⟨_, t, inv_withHost keyed_meets_inv _, ht, rfl, hb⟩
  · obtain ⟨t, ht, hb⟩ := next_of_after (o := step { keyed with host := [.write 0x00 0x00000f01] })
      (f := fun t => (t.kv, t.err)) (x := (true, true)) (by decide)
    exact ⟨_, t, inv_withHost keyed_meets_inv _, ht, rfl, congrArg Prod.fst hb, congrArg Prod.snd hb⟩

/-- A step that changes each of the five. -/
theorem witness_WhoMayChangeEachRegister :
    (∃ s t, CoreInv s ∧ step s = .next t ∧ t.state ≠ s.state) ∧ (∃ s t, CoreInv s ∧ step s = .next t ∧ t.key ≠ s.key) ∧
    (∃ s t, CoreInv s ∧ step s = .next t ∧ t.cmd ≠ s.cmd ∧ t.err ≠ s.err) ∧
    (∃ s t, CoreInv s ∧ step s = .next t ∧ t.gfres ≠ s.gfres) := by
  refine ⟨?_, ?_, ?_, ?_⟩
  · obtain ⟨t, ht, hb⟩ := next_of_after (o := step (hosted [.write 0x07 1])) (f := fun t => t.state.get 3) (x := 1) (by decide)
    exact ⟨_, t, inv_withHost reset_meets_inv _, ht, fun h => absurd (hb.symm.trans (congrArg (·.get 3) h)) (by decide)⟩
  · obtain ⟨t, ht, hb⟩ := next_of_after (o := step (hosted [.write 0x0f 1])) (f := fun t => t.key.get 7) (x := 1) (by decide)
    exact ⟨_, t, inv_withHost reset_meets_inv _, ht, fun h => absurd (hb.symm.trans (congrArg (·.get 7) h)) (by decide)⟩
  · obtain ⟨t, ht, hb⟩ := next_of_after (o := step (hosted [.write 0x00 2])) (f := fun t => (t.cmd, t.err)) (x := (2, true))
      (by decide)
    have h1 : t.cmd = 2 := congrArg Prod.fst hb
    have h2 : t.err = true := congrArg Prod.snd hb
    refine ⟨_, t, inv_withHost reset_meets_inv _, ht, ?_, ?_⟩
    · rw [h1]; decide
    · rw [h2]; decide
  · obtain ⟨t, ht, hb⟩ := next_of_after (o := step (flying (.gfmul 0x57 0x83) State.reset)) (f := (·.gfres)) (x := 0xc1)
      (by decide)
    refine ⟨_, t, inv_flying reset_meets_inv (by decide) (by decide) 0 [], ht, ?_⟩
    rw [hb]; decide

theorem witness_InFlightWindowKeepsWhatExecuteReads :
    let s := waiting .encrypt [.write 0x04 1] keyed
    CoreInv s ∧ s.busy = true ∧ s.remaining ≠ 0 ∧ ¬ ActsNext s .reset ∧ ∃ t, step s = .next t ∧ t.err = true := by
  refine ⟨inv_flying keyed_meets_inv (by decide) (by decide) 1 _, rfl, by decide, ?_, next_of_after (by decide)⟩
  rintro ⟨-, h⟩
  revert h
  decide

theorem witness_DisciplinedHostsNeverWriteWhileBusyOrReadFreeWords :
    let s := waiting .encrypt [.read 0x01, .wait, .read 0x04, .write 0x00 0x00000003, .wait] keyed
    CoreInv s ∧ disciplined s.busy s.host = true ∧ s.busy = true ∧ ¬ ActsNext s .reset ∧
      ∃ t, step s = .next t ∧ t.busy = true := by
  refine ⟨inv_flying keyed_meets_inv (by decide) (by decide) 1 _, by decide, rfl, ?_, next_of_after (by decide)⟩
  rintro ⟨-, h⟩
  revert h
  decide

theorem witness_WaitEnds :
    (let s := waiting .encrypt [.wait] keyed; CoreInv s ∧ s.host = .wait :: []) ∧
    (let s := hosted [.wait, .read 0x04]; CoreInv s ∧ s.host = .wait :: [.read 0x04]) :=
  ⟨⟨inv_flying keyed_meets_inv (by decide) (by decide) 1 _, rfl⟩, inv_withHost reset_meets_inv _, rfl⟩

theorem witness_ResultDoesNotDependOnLatency :
    let s := waiting .decrypt [.wait, .read 0x04] keyed
    CoreInv s ∧ s.busy = true ∧ s.host = .wait :: [.read 0x04] :=
  ⟨inv_flying keyed_meets_inv (by decide) (by decide) 1 _, rfl, rfl⟩

theorem witness_IssueAndWaitPerformsTheWholeCommand :
    let s : State := { keyed with host := [commandLine (.addroundkey 10 .dec), .wait] }
    CoreInv s ∧ s.Idle ∧ (Instr.addroundkey 10 .dec).wellFormed = true ∧ acceptError (.addroundkey 10 .dec) s = none ∧
      s.host = commandLine (.addroundkey 10 .dec) :: .wait :: [] :=
  ⟨inv_withHost keyed_meets_inv _, ⟨rfl, rfl⟩, by decide, by decide, rfl⟩

theorem witness_GfmulIsAField : gfmul 0x00 0x83 = 0x00 ∧ (0x01 : Byte) ≠ 0x00 ∧ gfmul 0x53 0xca = 0x01 := by decide

theorem witness_RoundConstantsAndRotation : (15 : Fin 16).val ≠ 0 := by decide

theorem witness_DecryptionScheduleMirrorsEncryption :
    (∀ p ∈ [(16, 4, 10), (24, 6, 12), (32, 8, 14)],
      (flying (.keyexp p.1) State.reset).pending = some (encode (.keyexp p.1))) ∧ 0 < 13 ∧ 13 < 14 := by decide

/-- The last round key of the longest schedule, in a second state that differs in KEY and GFRES. -/
theorem witness_AddRoundKeyReadsTheLiveSchedule :
    let s := flying (.addroundkey 14 .dec) keyed256
    let u : State := { s with key := Vector.replicate 8 1, gfres := 1 }
    CoreInv s ∧ acceptError (.addroundkey 14 .dec) s = none ∧ s.pending = some 0x00010e16 ∧
      (∃ t, exec (.addroundkey 14 .dec) s = .next t) ∧ u.pending = some 0x00010e16 ∧ u.state = s.state ∧
      (∀ c, c < 4 → (u.schedule .dec).getD (4 * 14 + c) 0 = (s.schedule .dec).getD (4 * 14 + c) 0) ∧
      ∃ t, exec (.addroundkey 14 .dec) u = .next t :=
  ⟨inv_flying (i := .addroundkey 14 .dec) keyed256_meets_inv (by decide) (by decide) 0 [], by decide, rfl,
    exec_next _ _, rfl, rfl, fun _ _ => rfl, exec_next _ _⟩

theorem witness_DecryptionIsTheTextbookInverse :
    CoreInv (flying .decrypt keyed192) ∧ (flying .decrypt keyed192).kv = true ∧
      (flying .decrypt keyed192).pending = some (encode .decrypt) :=
  ⟨inv_flying (i := .decrypt) keyed192_meets_inv (by decide) (by decide) 0 [], rfl, rfl⟩

/-- An idle state with a key, the host about to run any actions: the hypotheses of the four statements on runs. -/
theorem keyed256_hosted (l rest : List HostAction) :
    let s : State := { keyed256 with host := l ++ rest }
    CoreInv s ∧ s.Idle ∧ s.kv = true ∧ s.nr.toNat = 14 ∧ s.host = l ++ rest :=
  ⟨inv_withHost keyed256_meets_inv _, ⟨rfl, rfl⟩, rfl, rfl, rfl⟩

theorem witness_DecryptionUndoesEncryption :
    (∃ s rest, CoreInv s ∧ s.Idle ∧ s.kv = true ∧ s.host = commandsWithWait [.encrypt, .decrypt] ++ rest) ∧
    (∃ s rest, CoreInv s ∧ s.Idle ∧ s.kv = true ∧ s.host = commandsWithWait [.decrypt, .encrypt] ++ rest) := by
  obtain ⟨h1, h2, h3, -, h4⟩ := keyed256_hosted (commandsWithWait [.encrypt, .decrypt]) []
  obtain ⟨g1, g2, g3, -, g4⟩ := keyed256_hosted (commandsWithWait [.decrypt, .encrypt]) [.read 0x04]
  exact ⟨⟨_, _, h1, h2, h3, h4⟩, _, _, g1, g2, g3, g4⟩

theorem witness_StepCommandsDoWhatEncryptDoes :
    ∃ s rest, CoreInv s ∧ s.Idle ∧ s.kv = true ∧ s.host = commandsWithWait (encryptSteps s.nr.toNat) ++ rest := by
  obtain ⟨h1, h2, h3, hn, h4⟩ := keyed256_hosted (commandsWithWait (encryptSteps 14)) []
  exact ⟨_, _, h1, h2, h3, by rw [hn]⟩

theorem witness_StepCommandsDoWhatDecryptDoes :
    ∃ s rest, CoreInv s ∧ s.Idle ∧ s.kv = true ∧ s.host = commandsWithWait (decryptSteps s.nr.toNat) ++ rest := by
  obtain ⟨h1, h2, h3, hn, h4⟩ := keyed256_hosted (commandsWithWait (decryptSteps 14)) []
  exact ⟨_, _, h1, h2, h3, by rw [hn]⟩

theorem witness_SetKeyThenEncryptReturnsTheCiphertext (rest : List HostAction) :
    ∀ k ∈ [List.replicate 16 (0 : Byte), List.replicate 24 0, List.replicate 32 0],
      let p := List.replicate 16 (0 : Byte)
      let s : State := { State.reset with host := setkey k ++ (encBlock p ++ rest) }
      CoreInv s ∧ s.Idle ∧ (keyParams k.length).isSome = true ∧ p.length = 16 ∧
        s.host = setkey k ++ (encBlock p ++ rest) := fun k hk =>
  ⟨inv_withHost reset_meets_inv _, ⟨rfl, rfl⟩, by
    simp only [List.mem_cons, List.not_mem_nil, or_false] at hk
    rcases hk with rfl | rfl | rfl <;> decide, rfl, rfl⟩

/-- No key, the lengths beside the legal ones, and lengths that are legal modulo 256. -/
theorem witness_NewCipherReportsInvalidKeySize (rest : List HostAction) :
    ∀ k ∈ [0, 15, 17, 33, 255, 256, 272, 280, 288].map fun n => List.replicate n (0 : Byte),
      let s : State := { State.reset with host := newCipher k ++ rest }
      CoreInv s ∧ s.Idle ∧ k.length ≠ 16 ∧ k.length ≠ 24 ∧ k.length ≠ 32 ∧ s.host = newCipher k ++ rest :=
  fun k hk => by
    have h : k.length ≠ 16 ∧ k.length ≠ 24 ∧ k.length ≠ 32 := by
      obtain ⟨n, hn, rfl⟩ := List.mem_map.mp hk
      clear hk
      simp only [List.length_replicate]
      revert n
      decide
    exact ⟨inv_withHost reset_meets_inv _, ⟨rfl, rfl⟩, h.1, h.2.1, h.2.2, rfl⟩

end Sys2Proof.Tests
end

section
/-! PROOFS. How a step can end, and when it is no next state (R28, R73, R112). -/

namespace Sys2Proof.Machine

/-- A bus access that reaches no register has another width than a word, is misaligned, or lies outside the register
space (R70, R73). -/
theorem busOffset_error {addr bytes : Nat} {r : Refusal} (h : busOffset addr bytes = .error r) :
    bytes ≠ 4 ∨ addr % 4 ≠ 0 ∨ addr < Config.regBase ∨ Config.regBase + 4 * 256 ≤ addr := by
  unfold busOffset at h
  split_ifs at h with hwidth halign hrange
  · exact .inl hwidth
  · exact .inr (.inl halign)
  · omega

/-- The engine's turn completes the command its word decodes to. -/
theorem engineTurn_ok {w : Word} {i : Instr} (h : decode w = .ok i) (s : State) : engineTurn w s = exec i s := by
  simp [engineTurn, h]

/-- The engine's turn faults on a word that is no command (log entry 12). -/
theorem engineTurn_error {w : Word} {e : Reject} (h : decode w = .error e) (s : State) :
    engineTurn w s = .fault .undecodableInFlight := by
  simp [engineTurn, h]

/-- The host's turn runs its next action, with the later ones left to do. -/
theorem hostTurn_cons {s : State} {a : HostAction} {rest : List HostAction} (h : s.host = a :: rest) :
    hostTurn s = hostAction a (setHost rest s) := by
  simp [hostTurn, h]

/-- The host's turn answers a next state, or refuses the bus access that is its next action. -/
theorem hostTurn_outcome (s : State) :
    (∃ t, hostTurn s = .next t) ∨
    ∃ addr bytes r, (s.host.head? = some (.busRead addr bytes) ∨ ∃ v, s.host.head? = some (.busWrite addr bytes v)) ∧
      busOffset addr bytes = .error r ∧ hostTurn s = .refused r := by
  rcases hh : s.host with _ | ⟨a, rest⟩
  · exact .inl ⟨s, by simp [hostTurn, hh]⟩
  · rw [hostTurn_cons hh]
    rcases hostAction_cases a (setHost rest s) with
      ⟨off, -, e⟩ | ⟨off, v, -, e⟩ | ⟨-, e⟩ | ⟨-, e⟩ | ⟨addr, bytes, r, ha, hoff, e⟩
    · exact .inl ⟨_, e⟩
    · rw [e]
      exact .inl (hostWrite_next off v _)
    · exact .inl ⟨_, e⟩
    · exact .inl ⟨_, e⟩
    · exact .inr ⟨addr, bytes, r, by simpa using ha, hoff, e⟩

/-- A step is the completion of the word in flight, or the host's turn on a state with the same actions left to do. -/
theorem step_engine_or_host (s : State) :
    (∃ w, s.pending = some w ∧ s.remaining = 0 ∧ step s = engineTurn w s) ∨
    ((s.pending = none ∨ s.remaining ≠ 0) ∧ ∃ u, u.host = s.host ∧ step s = hostTurn u) := by
  rcases step_cases s with ⟨w, hw, hr, hs⟩ | ⟨w, -, hr, hs⟩ | ⟨hn, hs⟩
  · exact .inl ⟨w, hw, hr, hs⟩
  · exact .inr ⟨.inr hr, tick s, tick_host s, hs⟩
  · exact .inr ⟨.inl hn, s, rfl, hs⟩

/-- How a step can end: with a next state, with a fault at the completion of a word that is no command, or with the
refusal of the host's next action, a bus access that reaches no register. -/
theorem step_outcome (s : State) :
    (∃ t, step s = .next t) ∨
    (∃ w e, s.pending = some w ∧ s.remaining = 0 ∧ decode w = .error e ∧ step s = .fault .undecodableInFlight) ∨
    ∃ addr bytes r, (ActsNext s (.busRead addr bytes) ∨ ∃ v, ActsNext s (.busWrite addr bytes v)) ∧
      busOffset addr bytes = .error r ∧ step s = .refused r := by
  rcases step_engine_or_host s with ⟨w, hw, hr, hs⟩ | ⟨hturn, u, hu, hs⟩ <;> rw [hs]
  · rcases hd : decode w with e | i
    · exact .inr (.inl ⟨w, e, hw, hr, hd, engineTurn_error hd s⟩)
    · rw [engineTurn_ok hd]
      exact .inl (exec_next i s)
  · rcases hostTurn_outcome u with ht | ⟨addr, bytes, r, ha, hoff, e⟩
    · exact .inl ht
    · rw [hu] at ha
      exact .inr (.inr ⟨addr, bytes, r, ha.imp (⟨hturn, ·⟩) (Exists.imp fun _ hv => ⟨hturn, hv⟩), hoff, e⟩)

/-- The invariant keeps every step from faulting: the word in flight decodes (R53, R110). -/
theorem step_ne_fault {s : State} (h : CoreInv s) (f : Fault) : step s ≠ .fault f := by
  rcases step_outcome s with ⟨t, ht⟩ | ⟨w, e, hw, -, hd, -⟩ | ⟨_, _, r, -, -, hr⟩
  · simp [ht]
  · obtain ⟨-, i, hi, -⟩ := h.inFlight w hw
    cases hd.symm.trans hi
  · simp [hr]

/-- A refused step is a bus access of the host that reaches no register (R70, R73). -/
theorem step_refused {s : State} {r : Refusal} (h : step s = .refused r) :
    ∃ addr bytes, (ActsNext s (.busRead addr bytes) ∨ ∃ v, ActsNext s (.busWrite addr bytes v)) ∧
      busOffset addr bytes = .error r := by
  rcases step_outcome s with ⟨t, ht⟩ | ⟨_, _, -, -, -, hf⟩ | ⟨addr, bytes, r', ha, hoff, hr⟩
  · cases ht.symm.trans h
  · cases hf.symm.trans h
  · cases hr.symm.trans h
    exact ⟨addr, bytes, ha, hoff⟩

/-- Settles O38: no step from the invariant faults since the word in flight decodes, and a step is refused only where
`busOffset` answers an error. -/
theorem noStepFaultsAndOnlyBusAccessesAreRefused : Obligations.NoStepFaultsAndOnlyBusAccessesAreRefused := by
  refine ⟨fun s f h => step_ne_fault h f, fun s r h => ?_⟩
  obtain ⟨addr, bytes, ha, hoff⟩ := step_refused h
  exact ⟨addr, bytes, ha, busOffset_error hoff⟩

end Sys2Proof.Machine
end

section
/-! PROOFS. What a decode says of the word: it is the encoding of the command (R100 to R106). -/

namespace Sys2Proof

/-- A command without operands is encoded to the fields it was decoded from (R104, R106). -/
theorem encode_of_decodePlain {i j : Instr} {op a b k : Byte} (h : decodePlain i a b = .ok j)
    (hi : encode i = packWord k 0 0) (hop : op.toNat = k.toNat) : encode j = packWord op a b := by
  obtain ⟨rfl, rfl, rfl⟩ := decodePlain_ok.mp h
  rw [hi, BitVec.eq_of_toNat_eq hop]

/-- The fields that a command is decoded from are the ones it is encoded to (R104). The cases are the arms of `decodeOp`:
KEYEXP, GFMUL, ADDROUNDKEY, no opcode, and the commands without operands. -/
theorem encode_of_decodeOp {op a b : Byte} {i : Instr} (h : decodeOp op a b = .ok i) : encode i = packWord op a b := by
  unfold decodeOp at h
  split at h
  case h_2 hop =>
    split_ifs at h with hb
    cases h
    rw [hb, BitVec.eq_of_toNat_eq (y := 0x01#8) hop]
    simp [encode]
  case h_5 hop =>
    cases h
    rw [BitVec.eq_of_toNat_eq (y := 0x04#8) hop]
    rfl
  case h_12 hop =>
    rw [BitVec.eq_of_toNat_eq (y := 0x16#8) hop]
    split_ifs at h with hb hb <;> cases h <;> simp [hb, encode, fieldOfSched]
  case h_13 => cases h
  case h_1 hop | h_3 hop | h_4 hop | h_6 hop | h_7 hop | h_8 hop | h_9 hop | h_10 hop | h_11 hop =>
    exact encode_of_decodePlain h rfl hop

/-- A word that decodes is the encoding of its command (R100, R104, R106). -/
theorem encode_of_decode {w : Word} {i : Instr} (h : decode w = .ok i) : encode i = w := by
  unfold decode at h
  split_ifs at h with hx
  have hw := word_of_fields w
  rw [hx] at hw
  exact (encode_of_decodeOp h).trans hw

/-- A table word of 32 bits is decoded as it stands (R101). -/
theorem decode_of_decodeTableWord {w : Nat} {i : Instr} (hw : w < 2 ^ 32) (h : decodeTableWord 32 w = some i) :
    decode (BitVec.ofNat 32 w) = .ok i := by
  unfold decodeTableWord at h
  dsimp only at h
  rw [Nat.mod_eq_of_lt hw, if_pos hw] at h
  split at h
  · rename_i j hj
    cases h
    exact hj
  · cases h

end Sys2Proof
end

section
/-! PROOFS. STATUS, the reset state, and the host's write of a command word (R42, R43, R50, R54). -/

namespace Sys2Proof.Machine

/-- The bits and fields of eight parts of the widths of STATUS, side by side (R42). -/
theorem append_statusFields (z : BitVec 16) (nk nr ecode : BitVec 4) (zero : BitVec 1) (err kv busy : Bool) :
    let w := z ++ nk ++ nr ++ ecode ++ zero ++ flagBit err ++ flagBit kv ++ flagBit busy
    w.getLsbD 0 = busy ∧ w.getLsbD 1 = kv ∧ w.getLsbD 2 = err ∧ w.getLsbD 3 = zero.getLsbD 0 ∧
      w.extractLsb' 4 4 = ecode ∧ w.extractLsb' 8 4 = nr ∧ w.extractLsb' 12 4 = nk ∧ w.extractLsb' 16 16 = z := by
  simp only [BitVec.getLsbD_append, BitVec.extractLsb'_append_eq_of_le, BitVec.extractLsb'_append_eq_right,
    BitVec.extractLsb'_eq_self, Nat.reduceLeDiff, Nat.reduceSub, flagBit]
  simp

/-- Settles O17: STATUS is its fields side by side, so each range of bits reads back one field. -/
theorem statusWordHasItsFields : Obligations.StatusWordHasItsFields := fun s =>
  append_statusFields 0#16 s.nk s.nr s.ecode 0#1 s.err s.kv s.busy

/-- Settles O25: every register of the reset state is a constant. -/
theorem resetStateHasTheResetValues : Obligations.ResetStateHasTheResetValues := by
  unfold Obligations.ResetStateHasTheResetValues
  simp [State.reset, Vector.get_eq_getElem]

/-- Settles O21: an idle STATUS write clears or changes nothing as `clearBit` says; a busy write is dropped. -/
theorem statusWriteClearsTheRecord : Obligations.StatusWriteClearsTheRecord := by
  have hstatus : regAt 0x01 = .status := by decide
  have hidle : ∀ (s : State) (v : Word), s.busy = false →
      hostWrite 0x01 v s = .next (if clearBit v then clearError s else s) := fun s v hb => by
    rw [hostWrite_idle 0x01 v hb, hstatus, writeReg]
  intro s v
  refine ⟨fun hb hv => ?_, fun hb hv => ?_, fun hb => ?_⟩
  · rw [hidle s v hb, clearBit, hv, if_pos rfl, clearError]
  · rw [hidle s v hb, clearBit, hv, if_neg Bool.false_ne_true]
  · rw [hostWrite_busy 0x01 v hb]
    rfl

/-- A word written to CMD of an idle core runs the command it decodes to, with the word in CMD (R75, R110). -/
theorem hostWrite_cmd {w : Word} {i : Instr} {s : State} (hb : s.busy = false) (hd : decode w = .ok i) :
    hostWrite 0x00 w s = exec i (setCmd w s) := by
  have hcmd : regAt 0x00 = .cmd := by decide
  rw [hostWrite_idle 0x00 w hb, hcmd]
  simp [writeReg, issueCommand, hd]

/-- Settles O7: the host's next action is the CMD write, and nothing is in flight. -/
theorem fetchWordStepIssuesTheRow : Obligations.FetchWordStepIssuesTheRow := by
  intro s w i hw h
  have hd := decode_of_decodeTableWord hw h
  unfold State.withFetchWord
  rw [Nat.mod_eq_of_lt hw, step_idle rfl, hostTurn_cons rfl]
  exact hostWrite_cmd rfl hd

end Sys2Proof.Machine
end

section
/-! PROOFS. What a step may do to the registers, and who may change the schedules (R27, R44, R45, R75, R112). -/

namespace Sys2Proof.Machine

/-- What a host's turn does to the registers: a reset, nothing, or a host write on the same registers. -/
theorem hostTurn_effect {s u t : State} (hturn : s.pending = none ∨ s.remaining ≠ 0) (hhost : u.host = s.host)
    (hsame : ∀ l, SameRegisters s (setHost l u)) (h : hostTurn u = .next t) :
    (ActsNext s .reset ∧ ∃ u, t = resetCore u) ∨ SameRegisters s t ∨
    ∃ u off v, SameRegisters s u ∧ WritesNext s off v ∧ hostWrite off v u = .next t := by
  rcases hostTurn_cases h with ⟨-, rfl⟩ | ⟨a, rest, ha, hcase⟩
  · exact .inr (.inl (hsame t.host))
  · have hacts : ActsNext s a := ⟨hturn, by rw [← hhost, ha]; rfl⟩
    rcases hcase with ⟨off, -, rfl⟩ | ⟨off, v, hw, hwrite⟩ | ⟨rfl, rfl⟩ | ⟨-, rfl⟩
    · exact .inr (.inl (hsame rest))
    · refine .inr (.inr ⟨_, off, v, hsame rest, ?_, hwrite⟩)
      rcases hw with rfl | ⟨addr, bytes, rfl, hoff⟩
      · exact .inl hacts
      · exact .inr ⟨addr, bytes, hacts, hoff⟩
    · exact .inl ⟨hacts, _, rfl⟩
    · obtain ⟨l, o, f, hf⟩ := hostWait_frame (setHost rest u)
      rw [hf]
      exact .inr (.inl (hsame rest))

/-- What a step does to the registers: the completion of a command, a reset, nothing, or a host write on the same
registers. -/
theorem step_effect {s t : State} (h : step s = .next t) :
    (∃ i, CompletesNext s i ∧ exec i s = .next t) ∨
    (ActsNext s .reset ∧ ∃ u, t = resetCore u) ∨ SameRegisters s t ∨
    ∃ u off v, SameRegisters s u ∧ WritesNext s off v ∧ hostWrite off v u = .next t := by
  have hsame : ∀ l, SameRegisters s (setHost l s) := fun _ =>
    ⟨rfl, rfl, rfl, rfl, rfl, rfl, rfl, rfl, rfl, rfl, rfl, rfl, rfl⟩
  rcases step_cases s with ⟨w, hw, hr, hs⟩ | ⟨w, -, hr, hs⟩ | ⟨hn, hs⟩ <;> rw [hs] at h
  · rcases hd : decode w with e | i
    · rw [engineTurn_error hd] at h
      cases h
    · rw [engineTurn_ok hd] at h
      exact .inl ⟨i, ⟨w, hw, hr, hd⟩, h⟩
  · exact .inr (hostTurn_effect (.inr hr) (tick_host s) hsame h)
  · exact .inr (hostTurn_effect (.inl hn) rfl hsame h)

/-- What a host write leaves behind, from a state that has nothing in flight while idle (R75, R78, R110). -/
inductive WriteEffect (v : Word) (s : State) : State → Prop where
  /-- Dropped and recorded, the core is busy (R78). -/
  | dropped : WriteEffect v s (raiseError .writeWhileBusy s)
  /-- A command word that is illegal or that acceptance refuses (R110). -/
  | refused (e : CmdError) (hidle : s.pending = none) : WriteEffect v s (raiseError e (setCmd v s))
  /-- A command word that goes into flight (R110). -/
  | accepted (i : Instr) (hidle : s.pending = none) (hdecode : decode v = .ok i) (hcheck : acceptError i s = none) :
    WriteEffect v s (acceptCommand i (setCmd v s))
  /-- The error record cleared (R43). -/
  | cleared : WriteEffect v s (clearError s)
  /-- One word of STATE written (R75). -/
  | stateWord (c : Fin 4) : WriteEffect v s (setStateWord c v s)
  /-- One word of KEY written (R75). -/
  | keyWord (i : Fin 8) : WriteEffect v s (setKeyWord i v s)
  /-- No effect (R75). -/
  | ignored : WriteEffect v s s

/-- What a host write leaves behind is one of the effects of `WriteEffect`. -/
theorem hostWrite_effect {off : BitVec 8} {v : Word} {s t : State} (hidle : s.busy = false → s.pending = none)
    (h : hostWrite off v s = .next t) : WriteEffect v s t := by
  rcases hostWrite_cases off v s with
    ⟨-, e⟩ | ⟨hb, ⟨-, e⟩ | ⟨-, e⟩ | ⟨c, -, e⟩ | ⟨i, -, e⟩ | e⟩ <;> rw [e] at h
  · cases h
    exact .dropped
  · have hn := hidle hb
    rcases issueCommand_cases v hn with ⟨r, -, e⟩ | ⟨i, err, -, -, e⟩ | ⟨i, hd, ha, e⟩ <;> rw [e] at h <;> cases h
    · exact .refused _ hn
    · exact .refused err hn
    · exact .accepted i hn hd ha
  · cases h
    split
    · exact .cleared
    · exact .ignored
  · cases h
    exact .stateWord c
  · cases h
    exact .keyWord i
  · cases h
    exact .ignored

/-- KV, NR, NK, ERK and DRK are as before. -/
def SameKeySchedules (s t : State) : Prop :=
  t.kv = s.kv ∧ t.nr = s.nr ∧ t.nk = s.nk ∧ t.erk = s.erk ∧ t.drk = s.drk

theorem SameRegisters.sameKeySchedules {s t : State} (h : SameRegisters s t) : SameKeySchedules s t := by
  obtain ⟨-, -, -, -, hkv, -, -, hnr, hnk, -, herk, hdrk, -⟩ := h
  exact ⟨hkv, hnr, hnk, herk, hdrk⟩

/-- Nothing in flight while idle is a fact about the registers (R47). -/
theorem SameRegisters.idle {s t : State} (h : SameRegisters s t) (hidle : s.busy = false → s.pending = none) :
    t.busy = false → t.pending = none := by
  obtain ⟨-, -, -, hbusy, -, -, -, -, -, -, -, -, hpending⟩ := h
  rwa [hbusy, hpending]

theorem SameKeySchedules.trans {s t u : State} (h : SameKeySchedules s t) (h' : SameKeySchedules t u) :
    SameKeySchedules s u := by
  obtain ⟨hkv, hnr, hnk, herk, hdrk⟩ := h
  obtain ⟨hkv', hnr', hnk', herk', hdrk'⟩ := h'
  exact ⟨hkv'.trans hkv, hnr'.trans hnr, hnk'.trans hnk, herk'.trans herk, hdrk'.trans hdrk⟩

/-- No host write changes the schedules (R75). -/
theorem WriteEffect.sameKeySchedules {v : Word} {s t : State} (h : WriteEffect v s t) : SameKeySchedules s t := by
  cases h <;> exact ⟨rfl, rfl, rfl, rfl, rfl⟩

/-- The completion of a command leaves the schedules, or it is the completion of a KEYEXP of a legal length (R177). -/
theorem exec_inFlight_keySchedules {i : Instr} {s t : State} {w : Word} (hw : s.pending = some w)
    (h : exec i s = .next t) :
    SameKeySchedules s t ∨
    ∃ klen nk nr, i = .keyexp klen ∧ keyParams klen = some (nk, nr) ∧ t = finishCommand (expandKey nk nr s) := by
  cases i with
  | keyexp klen =>
    cases (runCommand_inFlight hw).symm.trans h
    rcases hk : keyParams klen with _ | ⟨nk, nr⟩
    · exact .inl ⟨rfl, rfl, rfl, rfl, rfl⟩
    · exact .inr ⟨klen, nk, nr, rfl, hk, rfl⟩
  | nop | encrypt | decrypt | gfmul | subbytes | invsubbytes | shiftrows | invshiftrows | mixcolumns | invmixcolumns
  | addroundkey =>
    cases (runCommand_inFlight hw).symm.trans h
    exact .inl ⟨rfl, rfl, rfl, rfl, rfl⟩

/-- A step leaves the schedules, or completes a KEYEXP of a legal length, or is a reset (R44, R45). -/
theorem step_keySchedules {s t : State} (hidle : s.busy = false → s.pending = none) (h : step s = .next t) :
    SameKeySchedules s t ∨
    (∃ klen nk nr, CompletesNext s (.keyexp klen) ∧ keyParams klen = some (nk, nr) ∧
      t = finishCommand (expandKey nk nr s)) ∨
    (ActsNext s .reset ∧ ∃ u, t = resetCore u) := by
  rcases step_effect h with
    ⟨i, hc, he⟩ | hreset | hsame | ⟨u, off, v, hsame, -, hwrite⟩
  · have ⟨w, hw, _⟩ := hc
    rcases exec_inFlight_keySchedules hw he with hk | ⟨klen, nk, nr, rfl, hk, rfl⟩
    · exact .inl hk
    · exact .inr (.inl ⟨klen, nk, nr, hc, hk, rfl⟩)
  · exact .inr (.inr hreset)
  · exact .inl hsame.sameKeySchedules
  · have heffect : WriteEffect v u t := hostWrite_effect (hsame.idle hidle) hwrite
    exact .inl (hsame.sameKeySchedules.trans heffect.sameKeySchedules)

end Sys2Proof.Machine
end

section
/-! PROOFS. The invariant of R53 holds at reset and every step keeps it. -/

namespace Sys2Proof.Machine

/-- Nothing is in flight while the core is idle (R47). -/
theorem CoreInv.pending_eq_none {s : State} (h : CoreInv s) (hb : s.busy = false) : s.pending = none := by
  simpa [hb] using h.busyIff

/-- What acceptance checks depends on KV and NR only (R110). -/
theorem acceptError_congr (i : Instr) {s t : State} (hkv : t.kv = s.kv) (hnr : t.nr = s.nr) :
    acceptError i t = acceptError i s := by
  cases i <;> simp only [acceptError, hkv, hnr]

/-- While the schedules stay, only the clauses on the error record and the command in flight are to be kept. -/
theorem CoreInv.of_sameKeySchedules {s t : State} (h : CoreInv s) (hk : SameKeySchedules s t)
    (hbusy : t.busy = t.pending.isSome) (hnoError : t.err = false → t.ecode = 0)
    (herror : t.err = true → 1 ≤ t.ecode.toNat ∧ t.ecode.toNat ≤ 5)
    (hflight : ∀ w, t.pending = some w → t.cmd = w ∧ ∃ i, decode w = .ok i ∧ acceptError i s = none) : CoreInv t := by
  obtain ⟨hkv, hnr, hnk, herk, hdrk⟩ := hk
  refine ⟨?_, ?_, hbusy, hnoError, herror, fun w hw => ?_⟩
  · rw [hkv, hnr, hnk, herk, hdrk]
    exact h.noKey
  · unfold SchedulesOfAKey
    rw [hkv, hnr, hnk, herk, hdrk]
    exact h.keyed
  · obtain ⟨hc, i, hd, ha⟩ := hflight w hw
    exact ⟨hc, i, hd, (acceptError_congr i hkv hnr).trans ha⟩

/-- States with the same registers meet the invariant together. -/
theorem CoreInv.of_sameRegisters {s t : State} (h : CoreInv s) (hsame : SameRegisters s t) : CoreInv t := by
  have hk : SameKeySchedules s t := hsame.sameKeySchedules
  obtain ⟨-, -, hcmd, hbusy, -, herr, hecode, -, -, -, -, -, hpending⟩ := hsame
  apply h.of_sameKeySchedules hk
  · rw [hbusy, hpending, h.busyIff]
  · rw [herr, hecode]
    exact h.noError
  · rw [herr, hecode]
    exact h.errorCode
  · rw [hpending, hcmd]
    exact h.inFlight

/-- The codes of the errors are 1 to 5 (R250). -/
theorem code_bounds (e : CmdError) : 1 ≤ e.code.toNat ∧ e.code.toNat ≤ 5 := by
  cases e <;> decide

/-- Recording an error leaves a code of 1 to 5, the first one recorded (R258). -/
theorem CoreInv.raiseError {s : State} (h : CoreInv s) (e : CmdError) : CoreInv (raiseError e s) := by
  refine h.of_sameKeySchedules ⟨rfl, rfl, rfl, rfl, rfl⟩ h.busyIff nofun (fun _ => ?_) h.inFlight
  rw [raiseError_ecode]
  split
  · exact h.errorCode ‹_›
  · exact code_bounds e

/-- CMD may be overwritten while nothing is in flight (R41). -/
theorem CoreInv.setCmd {s : State} (h : CoreInv s) (v : Word) (hidle : s.pending = none) : CoreInv (setCmd v s) := by
  refine h.of_sameKeySchedules ⟨rfl, rfl, rfl, rfl, rfl⟩ h.busyIff h.noError h.errorCode fun w hw => ?_
  rw [setCmd_pending, hidle] at hw
  cases hw

/-- The word in CMD may go into flight when it is a command that passes the checks (R110). -/
theorem CoreInv.acceptCommand {s : State} {i : Instr} (h : CoreInv s) (hdecode : decode s.cmd = .ok i)
    (hcheck : acceptError i s = none) : CoreInv (acceptCommand i s) := by
  refine h.of_sameKeySchedules ⟨rfl, rfl, rfl, rfl, rfl⟩ rfl h.noError h.errorCode fun w hw => ?_
  rw [acceptCommand_pending, encode_of_decode hdecode] at hw
  cases hw
  exact ⟨rfl, i, hdecode, hcheck⟩

/-- Every effect of a host write keeps the invariant (R75, R78, R110). -/
theorem WriteEffect.coreInv {v : Word} {s t : State} (heffect : WriteEffect v s t) (h : CoreInv s) : CoreInv t := by
  cases heffect with
  | dropped => exact h.raiseError .writeWhileBusy
  | refused e hidle => exact (h.setCmd v hidle).raiseError e
  | accepted i hidle hdecode hcheck =>
    exact (h.setCmd v hidle).acceptCommand hdecode ((acceptError_cmd i v s).trans hcheck)
  | cleared =>
    exact h.of_sameKeySchedules ⟨rfl, rfl, rfl, rfl, rfl⟩ h.busyIff (fun _ => rfl) nofun h.inFlight
  | stateWord | keyWord =>
    exact h.of_sameKeySchedules ⟨rfl, rfl, rfl, rfl, rfl⟩ h.busyIff h.noError h.errorCode h.inFlight
  | ignored => exact h

/-- KEYEXP of a legal length leaves the two schedules of the key in KEY (R174, R177). -/
theorem schedulesOfAKey_expandKey {klen nk nr : Nat} (h : keyParams klen = some (nk, nr)) (s : State) :
    SchedulesOfAKey (expandKey nk nr s) :=
  ⟨s.key, klen, nk, nr, h, rfl, rfl, rfl, rfl⟩

/-- The completion of a command keeps the invariant (R112). -/
theorem CoreInv.exec_inFlight {i : Instr} {s t : State} {w : Word} (h : CoreInv s) (hw : s.pending = some w)
    (he : exec i s = .next t) : CoreInv t := by
  rcases exec_inFlight_keySchedules hw he with hk | ⟨klen, nk, nr, -, hk, rfl⟩
  · obtain ⟨t', he', hpending, hbusy, -, -, -, herr, hecode, -⟩ := Machine.exec_inFlight i hw
    cases he'.symm.trans he
    apply h.of_sameKeySchedules hk
    · rw [hpending, hbusy, Option.isSome_none]
    · rw [herr, hecode]
      exact h.noError
    · rw [herr, hecode]
      exact h.errorCode
    · rw [hpending]
      exact nofun
  · exact ⟨nofun, fun _ => schedulesOfAKey_expandKey hk s, rfl, h.noError, h.errorCode, nofun⟩

/-- A reset leads to a state that meets the invariant, whatever it comes from (R54, R290). -/
theorem coreInv_resetCore (s : State) : CoreInv (resetCore s) :=
  ⟨fun _ => ⟨rfl, rfl, rfl, rfl⟩, nofun, rfl, fun _ => rfl, nofun, nofun⟩

/-- Settles O35: the reset state is what a reset leads to. -/
theorem resetStateMeetsTheInvariant : Obligations.ResetStateMeetsTheInvariant := coreInv_resetCore State.reset

/-- Settles O36: a completion, a reset, a host write and every step that changes no register keep the invariant. -/
theorem everyStepKeepsTheInvariant : Obligations.EveryStepKeepsTheInvariant := by
  intro s t h hstep
  rcases step_effect hstep with ⟨i, ⟨w, hw, -, -⟩, he⟩ | ⟨-, u, rfl⟩ | hsame | ⟨u, off, v, hsame, -, hwrite⟩
  · exact h.exec_inFlight hw he
  · exact coreInv_resetCore u
  · exact h.of_sameRegisters hsame
  · have hu : CoreInv u := h.of_sameRegisters hsame
    exact (hostWrite_effect hu.pending_eq_none hwrite).coreInv hu

/-- Settles O39: a step leaves the five registers, or is the completion of a KEYEXP of a legal length, or a reset. -/
theorem onlyKeyexpAndResetChangeTheKeySchedules : Obligations.OnlyKeyexpAndResetChangeTheKeySchedules := by
  intro s t h hstep
  rcases step_keySchedules h.pending_eq_none hstep with hk | ⟨klen, nk, nr, hc, hk, rfl⟩ | ⟨ha, u, rfl⟩
  · exact .inl hk
  · refine .inr (.inl ⟨klen, nk, nr, hc, ?_, rfl, rfl, rfl⟩)
    rcases keyParams_cases hk with ⟨rfl, hp⟩ | ⟨rfl, hp⟩ | ⟨rfl, hp⟩ <;> cases hp <;> decide
  · exact .inr (.inr ⟨ha, rfl, rfl, rfl⟩)

end Sys2Proof.Machine
end

section
/-! PROOFS. The clauses of R53 on every state that a host brings the machine to from reset. -/

namespace Sys2Proof.Machine

/-- Every state that a host brings the machine to from reset meets the invariant (R53). -/
theorem coreInv_of_run {n : Nat} {h : List HostAction} {s : State}
    (hrun : runSteps n { State.reset with host := h } = .next s) : CoreInv s :=
  runSteps_keeps everyStepKeepsTheInvariant n _ s (coreInv_resetCore { State.reset with host := h }) hrun

/-- Without a key the words of both schedules are 0 (R53 (a)). -/
theorem CoreInv.schedules_eq_zero {s : State} (h : CoreInv s) (hkv : s.kv = false) (j : Fin 60) :
    s.erk.get j = 0 ∧ s.drk.get j = 0 := by
  obtain ⟨-, -, herk, hdrk⟩ := h.noKey hkv
  rw [herk, hdrk]
  simp [Vector.get_eq_getElem]

/-- With a key NR and NK are those of a legal length (R53 (b)). -/
theorem SchedulesOfAKey.nr_nk {s : State} (h : SchedulesOfAKey s) :
    (s.nr, s.nk) = (10, 4) ∨ (s.nr, s.nk) = (12, 6) ∨ (s.nr, s.nk) = (14, 8) := by
  obtain ⟨key, klen, nk, nr, hp, hnk, hnr, -, -⟩ := h
  rw [hnk, hnr]
  rcases keyParams_cases hp with ⟨-, h⟩ | ⟨-, h⟩ | ⟨-, h⟩ <;> cases h <;> decide

/-- The words past the live schedules are 0 (R53 (b)). -/
theorem SchedulesOfAKey.schedules_eq_zero {s : State} (h : SchedulesOfAKey s) (j : Fin 60)
    (hj : 4 * (s.nr.toNat + 1) ≤ j.val) : s.erk.get j = 0 ∧ s.drk.get j = 0 := by
  obtain ⟨key, klen, nk, nr, hp, -, hnr, herk, hdrk⟩ := h
  have hn : s.nr.toNat = nr := by
    rw [hnr]
    rcases keyParams_cases hp with ⟨-, h⟩ | ⟨-, h⟩ | ⟨-, h⟩ <;> cases h <;> rfl
  rw [hn] at hj
  rw [herk, hdrk, scheduleBuf_get, scheduleBuf_get, if_neg (by omega), if_neg (by omega)]
  exact ⟨rfl, rfl⟩

/-- A read of GFRES while idle gives the byte zero-extended (R34, R74). -/
theorem readValue_gfres_idle {s : State} (hb : s.busy = false) : readValue 0x02 s = s.gfres.setWidth 32 := by
  have hgfres : regAt 0x02 = .gfres := by decide
  rw [readValue, readIsFree, hb, Bool.false_and, hgfres]
  rfl

/-- Settles O37: the invariant holds after every run from reset, and each clause follows from it. -/
theorem reachableStatesMeetR53 : Obligations.ReachableStatesMeetR53 := by
  intro n l s hrun
  have h : CoreInv s := coreInv_of_run hrun
  refine ⟨fun hkv => ?_, fun hkv => ⟨(h.keyed hkv).nr_nk, (h.keyed hkv).schedules_eq_zero⟩, ?_, h.noError, fun hb => ?_⟩
  · obtain ⟨hnr, hnk, -, -⟩ := h.noKey hkv
    exact ⟨hnr, hnk, h.schedules_eq_zero hkv⟩
  · rw [h.busyIff, Option.isSome_iff_ne_none]
  · rw [readValue_gfres_idle hb]
    apply BitVec.eq_of_getLsbD_eq
    intro j hj
    simp

end Sys2Proof.Machine
end

section
/-! PROOFS. The register map read both ways, and what a host read or write does to an idle and to a busy core (R70 to
R79). -/

namespace Sys2Proof.Machine

/-- The offsets of a register, row by row as R71 lists them. -/
def Reg.AtOffset (n : Nat) : Reg → Prop
  | .cmd => n = 0x00
  | .status => n = 0x01
  | .gfres => n = 0x02
  | .state c => n = 0x04 + c.val
  | .key i => n = 0x08 + i.val
  | .erk j => n = 0x40 + j.val
  | .drk j => n = 0x80 + j.val
  | .reserved => n = 0x03 ∨ (0x10 ≤ n ∧ n < 0x40) ∨ (0x7C ≤ n ∧ n < 0x80) ∨ 0xBC ≤ n

/-- The register at an offset is one that R71 places there. -/
theorem regAt_atOffset (off : BitVec 8) : (regAt off).AtOffset off.toNat := by
  unfold regAt
  dsimp only
  split_ifs <;> simp only [Reg.AtOffset] <;> omega

/-- The register at an offset is the one that R71 places there: the tests of the rows before it fail. -/
theorem regAt_eq {off : BitVec 8} {r : Reg} (h : r.AtOffset off.toNat) : regAt off = r := by
  unfold regAt
  cases r with
  | cmd | status | gfres => simp [show off.toNat = _ from h]
  | state k | key k | erk k | drk k =>
    have hoff : off.toNat = _ + k.val := h
    simp (disch := omega) only [hoff, if_neg, dif_neg, dif_pos, Nat.add_sub_cancel_left]
  | reserved =>
    simp only [Reg.AtOffset] at h
    simp (disch := omega) only [if_neg, dif_neg]

/-- While idle no read is free (R79). -/
theorem readIsFree_idle (off : BitVec 8) {s : State} (h : s.busy = false) : readIsFree off s = false := by
  simp [readIsFree, h]

/-- The offsets of STATE, GFRES, ERK and DRK, whose reads are free while busy (R71, R79). -/
theorem readIsFree_busy (off : BitVec 8) {s : State} (h : s.busy = true) :
    readIsFree off s = true ↔
      off.toNat = 0x02 ∨ (0x04 ≤ off.toNat ∧ off.toNat ≤ 0x07) ∨ (0x40 ≤ off.toNat ∧ off.toNat ≤ 0x7B) ∨
        (0x80 ≤ off.toNat ∧ off.toNat ≤ 0xBB) := by
  have hr := regAt_atOffset off
  rw [readIsFree, h, Bool.true_and]
  generalize regAt off = r at hr ⊢
  cases r with
  | state | gfres | erk | drk =>
    simp only [Reg.AtOffset] at hr
    exact iff_of_true rfl (by omega)
  | cmd | status | key | reserved =>
    simp only [Reg.AtOffset] at hr
    exact iff_of_false Bool.false_ne_true (by omega)

/-- A read that is not free answers what the register holds (R74). -/
theorem hostRead_exact {off : BitVec 8} {s : State} (h : readIsFree off s = false) :
    hostRead off s = { s with observed := ⟨off, regValue s (regAt off)⟩ :: s.observed } := by
  simp [hostRead, readValue, h]

/-- A free read draws a fresh word (R79, log entry 2). -/
theorem hostRead_free {off : BitVec 8} {s : State} (h : readIsFree off s = true) :
    hostRead off s =
      { s with
        observed := ⟨off, Config.freeRead s.freeReads off s.snapshot⟩ :: s.observed
        freeReads := s.freeReads + 1 } := by
  simp [hostRead, readValue, h]

/-- A step of an idle core runs the host's next action (R80). -/
theorem step_idle_cons {s : State} {a : HostAction} {rest : List HostAction} (hidle : s.pending = none)
    (hhost : s.host = a :: rest) : step s = hostAction a { s with host := rest } := by
  rw [step_idle hidle, hostTurn_cons hhost, setHost]

/-- A step inside the window of a command in flight runs the host's next action, and the window is one step shorter
(R80, R300). -/
theorem step_waiting_cons {s : State} {a : HostAction} {rest : List HostAction} {w : Word} {n : Nat}
    (hw : s.pending = some w) (hr : s.remaining = n + 1) (hhost : s.host = a :: rest) :
    step s = hostAction a { s with remaining := n, host := rest } := by
  have hturn : hostTurn (tick s) = hostAction a (setHost rest (tick s)) := hostTurn_cons hhost
  rw [step_waiting hw (by omega), hturn, setHost, tick, hr, Nat.add_sub_cancel]

/-- A byte zero-extended to a word has the byte in bits 7..0 and 0 above (R34). -/
theorem extractLsb'_zeroExtend (b : Byte) :
    (b.setWidth 32).extractLsb' 0 8 = b ∧ (b.setWidth 32).extractLsb' 8 24 = 0 := by
  constructor
  · simp [BitVec.extractLsb'_setWidth_of_le]
  · apply BitVec.eq_of_getLsbD_eq
    intro j hj
    simp

/-- Settles O18: an idle read answers the register's value, and the map places each register at its offsets. -/
theorem idleReadsGiveTheRegisters : Obligations.IdleReadsGiveTheRegisters := by
  intro s off rest hb hidle hhost
  refine ⟨regValue s (regAt off), ?_, fun h => ?_, fun h => ?_, fun h => ?_, fun c h => ?_, fun i h => ?_, fun j h => ?_,
    fun j h => ?_, fun h => ?_⟩
  · rw [step_idle_cons hidle hhost, hostAction]
    exact congrArg Host.Outcome.next (hostRead_exact (by exact readIsFree_idle off hb))
  · rw [regAt_eq (r := .cmd) h, regValue]
  · rw [regAt_eq (r := .status) h, regValue]
  · rw [regAt_eq (r := .gfres) h, regValue]
    exact extractLsb'_zeroExtend s.gfres
  · rw [regAt_eq (r := .state c) h, regValue]
  · rw [regAt_eq (r := .key i) h, regValue]
  · rw [regAt_eq (r := .erk j) h, regValue]
  · rw [regAt_eq (r := .drk j) h, regValue]
  · rw [regAt_eq (r := .reserved) h, regValue]

/-- Settles O19: a busy read is free exactly at the offsets of the four unfixed registers. -/
theorem busyReadsAreFreeOrExact : Obligations.BusyReadsAreFreeOrExact := by
  intro s off rest w n hb hw hr hhost
  rw [step_waiting_cons hw hr hhost, hostAction, ← readIsFree_busy off hb]
  refine ⟨fun hfree => congrArg Host.Outcome.next (hostRead_free (by exact hfree)),
    fun hexact => ⟨regValue s (regAt off), ?_, ?_⟩⟩
  · exact congrArg Host.Outcome.next (hostRead_exact (by exact Bool.eq_false_iff.mpr hexact))
  · refine ⟨fun h => ?_, fun h => ?_, fun i h => ?_, fun h => ?_⟩
    · rw [regAt_eq (r := .cmd) h, regValue]
    · rw [regAt_eq (r := .status) h, regValue]
    · rw [regAt_eq (r := .key i) h, regValue]
    · rw [regAt_eq (r := .reserved) h, regValue]

/-- A write to a read-only register or a reserved offset has no effect (R71, R75). -/
theorem writeReg_readOnly {off : BitVec 8} (h : off.toNat = 0x02 ∨ off.toNat = 0x03 ∨ 0x10 ≤ off.toNat) (v : Word)
    (s : State) : writeReg (regAt off) v s = .next s := by
  have hr := regAt_atOffset off
  generalize regAt off = r at hr ⊢
  cases r with
  | gfres | erk | drk | reserved => rfl
  | cmd | status | state | key =>
    simp only [Reg.AtOffset] at hr
    omega

/-- Writing one word of an array writes that word and no other (R75). -/
theorem get_set_word {n : Nat} (k : Vector Word n) (i : Fin n) (v : Word) :
    (k.set i.val v).get i = v ∧ ∀ j : Fin n, j ≠ i → (k.set i.val v).get j = k.get j := by
  refine ⟨by simp [Vector.get_eq_getElem], fun j hj => ?_⟩
  simp [Vector.get_eq_getElem, Fin.val_inj, hj.symm]

/-- Settles O20: an idle write is a write to the register that the map places at the offset. -/
theorem idleWritesGoToTheRegisters : Obligations.IdleWritesGoToTheRegisters := by
  intro s off v rest hb hidle hhost
  have hstep : step s = writeReg (regAt off) v { s with host := rest } :=
    (step_idle_cons hidle hhost).trans (hostWrite_idle off v hb)
  rw [hstep]
  refine ⟨fun c h => ?_, fun i h => ?_, fun h => writeReg_readOnly h v _⟩
  · rw [regAt_eq (r := .state c) h]
    exact ⟨_, rfl, get_set_word s.state c v⟩
  · rw [regAt_eq (r := .key i) h]
    exact ⟨_, rfl, get_set_word s.key i v⟩

/-- The completion of a command reads no error record: it does the same to every other register whatever ERR and ECODE
hold (R111, R112). -/
theorem exec_inFlight_sameButErrorRecord (i : Instr) {s s' : State} {w : Word} (hw : s.pending = some w)
    (hsame : SameButErrorRecord s s') :
    ∃ t t', exec i s = .next t ∧ exec i s' = .next t' ∧ SameButErrorRecord t t' := by
  obtain ⟨hstate, hkey, hcmd, hbusy, hkv, hnr, hnk, hgfres, herk, hdrk, hpending⟩ := hsame
  have hw' := hpending.trans hw
  cases i with
  | keyexp klen =>
    refine ⟨_, _, runCommand_inFlight hw, runCommand_inFlight hw', ?_⟩
    cases keyParams klen <;> simp [SameButErrorRecord, *]
  | nop | encrypt | decrypt | gfmul | subbytes | invsubbytes | shiftrows | invshiftrows | mixcolumns | invmixcolumns =>
    exact ⟨_, _, runCommand_inFlight hw, runCommand_inFlight hw', by simp [SameButErrorRecord, *]⟩
  | addroundkey rnd sch =>
    refine ⟨_, _, runCommand_inFlight hw, runCommand_inFlight hw', ?_⟩
    cases sch <;> simp [SameButErrorRecord, State.schedule, *]

/-- Settles O22: a busy write only records its error, which the completion does not read. -/
theorem writeWhileBusyIsDropped : Obligations.WriteWhileBusyIsDropped := by
  intro s off v w rest n hb hw hr hhost
  refine ⟨(step_waiting_cons hw hr hhost).trans (hostWrite_busy off v hb), fun i => ?_⟩
  exact exec_inFlight_sameButErrorRecord i hw ⟨rfl, rfl, rfl, rfl, rfl, rfl, rfl, rfl, rfl, rfl, rfl⟩

/-- The bus address of an offset, one aligned word (R70). -/
theorem busOffset_word (off : BitVec 8) : busOffset (Config.regBase + 4 * off.toNat) 4 = .ok off := by
  have halign : (Config.regBase + 4 * off.toNat) % 4 = 0 := by
    unfold Config.regBase
    omega
  have hrange : Config.regBase ≤ Config.regBase + 4 * off.toNat ∧
      Config.regBase + 4 * off.toNat < Config.regBase + 4 * 256 := by omega
  have hindex : (Config.regBase + 4 * off.toNat - Config.regBase) / 4 = off.toNat := by omega
  rw [busOffset, if_neg (by decide), if_neg (by simpa using halign), if_pos hrange, hindex, BitVec.ofNat_toNat,
    BitVec.setWidth_eq]

/-- An access of another width or at a misaligned address has no offset (R73). -/
theorem busOffset_refused {addr bytes : Nat} (h : bytes ≠ 4 ∨ addr % 4 ≠ 0) : ∃ r, busOffset addr bytes = .error r := by
  unfold busOffset
  split_ifs
  · exact ⟨_, rfl⟩
  · exact ⟨_, rfl⟩
  · omega
  · omega

/-- Settles O23: a bus access is decided by `busOffset` alone. -/
theorem busAccessesAreWordsOrRefused : Obligations.BusAccessesAreWordsOrRefused := by
  refine ⟨fun s off v => ?_, fun s addr bytes v h => ?_⟩
  · simp [hostAction, busOffset_word]
  · obtain ⟨r, hr⟩ := busOffset_refused h
    simp [hostAction, hr]

end Sys2Proof.Machine
end

section
/-! PROOFS. Who may change STATE, KEY, CMD, GFRES and the error record (R31, R32, R34, R41, R86, R257, R259). -/

namespace Sys2Proof.Machine

/-- The commands whose completion writes STATE: ENCRYPT, DECRYPT and the seven step commands (R31, R86). -/
def WritesState (i : Instr) : Prop :=
  i ∈ [.encrypt, .decrypt, .subbytes, .invsubbytes, .shiftrows, .invshiftrows, .mixcolumns, .invmixcolumns] ∨
    ∃ rnd sch, i = .addroundkey rnd sch

/-- The completion of NOP, KEYEXP and GFMUL leaves STATE (R86). -/
theorem exec_inFlight_state {i : Instr} {s t : State} {w : Word} (hw : s.pending = some w) (h : exec i s = .next t) :
    t.state = s.state ∨ WritesState i := by
  cases i with
  | nop | gfmul =>
    cases (runCommand_inFlight hw).symm.trans h
    exact .inl rfl
  | keyexp klen =>
    cases (runCommand_inFlight hw).symm.trans h
    cases keyParams klen <;> exact .inl rfl
  | encrypt | decrypt | subbytes | invsubbytes | shiftrows | invshiftrows | mixcolumns | invmixcolumns =>
    exact .inr (.inl (by decide))
  | addroundkey rnd sch => exact .inr (.inr ⟨rnd, sch, rfl⟩)

/-- Only the completion of GFMUL writes GFRES (R34). -/
theorem exec_inFlight_gfres {i : Instr} {s t : State} {w : Word} (hw : s.pending = some w) (h : exec i s = .next t) :
    t.gfres = s.gfres ∨ ∃ a b, i = .gfmul a b ∧ t.gfres = gfmul a b := by
  cases i with
  | gfmul a b =>
    cases (runCommand_inFlight hw).symm.trans h
    exact .inr ⟨a, b, rfl, rfl⟩
  | keyexp klen =>
    cases (runCommand_inFlight hw).symm.trans h
    cases keyParams klen <;> exact .inl rfl
  | nop | encrypt | decrypt | subbytes | invsubbytes | shiftrows | invshiftrows | mixcolumns | invmixcolumns
  | addroundkey =>
    cases (runCommand_inFlight hw).symm.trans h
    exact .inl rfl

/-- Issuing a command word changes CMD, the error record and what is in flight, and nothing else (R110). -/
theorem issueCommand_frame {v : Word} {s t : State} (hidle : s.pending = none) (h : issueCommand v s = .next t) :
    t.cmd = v ∧ t.state = s.state ∧ t.key = s.key ∧ t.gfres = s.gfres := by
  rcases issueCommand_cases v hidle with ⟨_, -, e⟩ | ⟨_, _, -, -, e⟩ | ⟨_, -, -, e⟩ <;> cases e.symm.trans h <;>
    exact ⟨rfl, rfl, rfl, rfl⟩

/-- What a host write may change: STATE, KEY and CMD, each at its own offsets of an idle core, and never GFRES (R75,
R78). -/
theorem hostWrite_frame {off : BitVec 8} {v : Word} {s t : State} (hidle : s.busy = false → s.pending = none)
    (h : hostWrite off v s = .next t) :
    (t.state = s.state ∨ s.busy = false ∧ ∃ c, regAt off = .state c) ∧
    (t.key = s.key ∨ s.busy = false ∧ ∃ i, regAt off = .key i) ∧
    (t.cmd = s.cmd ∨ s.busy = false ∧ regAt off = .cmd ∧ t.cmd = v) ∧
    t.gfres = s.gfres := by
  rcases hostWrite_cases off v s with
    ⟨-, e⟩ | ⟨hb, ⟨hcmd, e⟩ | ⟨-, e⟩ | ⟨c, hc, e⟩ | ⟨i, hi, e⟩ | e⟩ <;> rw [e] at h
  · cases h
    exact ⟨.inl rfl, .inl rfl, .inl rfl, rfl⟩
  · obtain ⟨hv, hstate, hkey, hgfres⟩ := issueCommand_frame (hidle hb) h
    exact ⟨.inl hstate, .inl hkey, .inr ⟨hb, hcmd, hv⟩, hgfres⟩
  · cases h
    split <;> exact ⟨.inl rfl, .inl rfl, .inl rfl, rfl⟩
  · cases h
    exact ⟨.inr ⟨hb, c, hc⟩, .inl rfl, .inl rfl, rfl⟩
  · cases h
    exact ⟨.inl rfl, .inr ⟨hb, i, hi⟩, .inl rfl, rfl⟩
  · cases h
    exact ⟨.inl rfl, .inl rfl, .inl rfl, rfl⟩

/-- Settles O40: a step is a completion, a reset, a host write, or changes no register, and the frames of the completion
and of the write say which registers each may change. -/
theorem whoMayChangeEachRegister : Obligations.WhoMayChangeEachRegister := by
  intro s t hinv hstep
  rcases step_effect hstep with ⟨i, hc, he⟩ | ⟨hreset, -⟩ | hsame | ⟨u, off, v, hsame, hwrites, hwrite⟩
  · have ⟨w, hw, _⟩ := hc
    obtain ⟨t', he', -, -, -, hkey, hcmd, herr, hecode, -⟩ := exec_inFlight i hw
    cases he'.symm.trans he
    refine ⟨fun hne => .inr (.inr ⟨i, hc, (exec_inFlight_state hw he).resolve_left hne⟩), fun hne => absurd hkey hne,
      fun hne => absurd hcmd hne, fun hne => ?_, fun hne => absurd ⟨herr, hecode⟩ (not_and_or.mpr hne)⟩
    obtain ⟨a, b, rfl, hgfres⟩ := (exec_inFlight_gfres hw he).resolve_left hne
    exact .inr ⟨a, b, hc, hgfres⟩
  · exact ⟨fun _ => .inl hreset, fun _ => .inl hreset, fun _ => .inl hreset, fun _ => .inl hreset, fun _ => .inl hreset⟩
  · obtain ⟨hstate, hkey, hcmd, -, -, herr, hecode, -, -, hgfres, -⟩ := hsame
    exact ⟨absurd hstate, absurd hkey, absurd hcmd, absurd hgfres, fun hne => absurd ⟨herr, hecode⟩ (not_and_or.mpr hne)⟩
  · obtain ⟨hstate', hkey', hcmd', hgfres'⟩ := hostWrite_frame (hsame.idle hinv.pending_eq_none) hwrite
    obtain ⟨hstate, hkey, hcmd, hbusy, -, -, -, -, -, hgfres, -⟩ := hsame
    rw [hstate, hbusy] at hstate'
    rw [hkey, hbusy] at hkey'
    rw [hcmd, hbusy] at hcmd'
    refine ⟨fun hne => ?_, fun hne => ?_, fun hne => ?_, absurd (hgfres'.trans hgfres), fun _ => .inr ⟨off, v, hwrites⟩⟩
    · obtain ⟨hb, c, hoff⟩ := hstate'.resolve_left hne
      have := regAt_state hoff
      exact .inr (.inl ⟨off, v, hwrites, hb, by omega, by omega⟩)
    · obtain ⟨hb, j, hoff⟩ := hkey'.resolve_left hne
      have := regAt_key hoff
      exact .inr ⟨off, v, hwrites, hb, by omega, by omega⟩
    · obtain ⟨hb, hoff, hv⟩ := hcmd'.resolve_left hne
      cases regAt_cmd hoff
      exact .inr ⟨v, hwrites, hb, hv⟩

end Sys2Proof.Machine
end

section
/-! PROOFS. The encoder, the decoder and R106 agree on every command and every word (R100 to R106). -/

namespace Sys2Proof

/-- KEYEXP keeps every length that its field holds (R102). -/
theorem decodeOp_keyexp (a : Byte) : decodeOp 0x01 a 0 = .ok (.keyexp a.toNat) := rfl

/-- ADDROUNDKEY keeps its round index and its schedule (R102, R104). -/
theorem decodeOp_addroundkey (a : Byte) (sch : Sched) :
    decodeOp 0x16 a (fieldOfSched sch) = .ok (.addroundkey a.toNat sch) := by
  cases sch <;> rfl

/-- The word of a well-formed command decodes to the command: its counts fit their 8-bit fields (R102, R105). -/
theorem decode_encode {i : Instr} (h : i.wellFormed = true) : decode (encode i) = .ok i := by
  cases i with
  | keyexp klen =>
    have hlen : klen < 256 := of_decide_eq_true h
    rw [encode, decode_packWord, decodeOp_keyexp, BitVec.toNat_ofNat, Nat.mod_eq_of_lt hlen]
  | addroundkey rnd sch =>
    have hrnd : rnd < 256 := of_decide_eq_true h
    rw [encode, decode_packWord, decodeOp_addroundkey, BitVec.toNat_ofNat, Nat.mod_eq_of_lt hrnd]
  | gfmul ga gb => exact decode_packWord 0x04 ga gb
  | nop | encrypt | decrypt | subbytes | invsubbytes | shiftrows | invshiftrows | mixcolumns | invmixcolumns => rfl

/-- Settles O3: packing and unpacking the fields loses nothing of a well-formed command. -/
theorem decodeOfEncodeIsTheCommand : Obligations.DecodeOfEncodeIsTheCommand := fun _ h => decode_encode h

/-- A decoded operand comes out of an 8-bit field, so it fits one (R102). -/
theorem wellFormed_of_decodeOp {op a b : Byte} {i : Instr} (h : decodeOp op a b = .ok i) : i.wellFormed = true := by
  unfold decodeOp at h
  split at h
  case h_2 =>
    split_ifs at h
    cases h
    exact decide_eq_true a.isLt
  case h_5 =>
    cases h
    rfl
  case h_12 =>
    split_ifs at h <;> cases h <;> exact decide_eq_true a.isLt
  case h_13 => cases h
  case h_1 | h_3 | h_4 | h_6 | h_7 | h_8 | h_9 | h_10 | h_11 =>
    obtain ⟨-, -, rfl⟩ := decodePlain_ok.mp h
    rfl

/-- A word decodes to a well-formed command (R102). -/
theorem wellFormed_of_decode {w : Word} {i : Instr} (h : decode w = .ok i) : i.wellFormed = true := by
  unfold decode at h
  split_ifs at h
  exact wellFormed_of_decodeOp h

/-- Settles O4: the fields of the word are those the command is encoded to, and its counts fit them. -/
theorem encodeOfDecodeIsTheWord : Obligations.EncodeOfDecodeIsTheWord :=
  fun _ _ h => ⟨wellFormed_of_decode h, encode_of_decode h⟩

/-- The word of every command is legal (R105, R106). -/
theorem legal_encode (i : Instr) : legal (encode i) = true := by
  have h : Laws.EncodedWord.Statement i := by
    cases i with
    | nop => exact Laws.EncodedWord.nop
    | keyexp klen => exact Laws.EncodedWord.keyexp klen
    | encrypt => exact Laws.EncodedWord.encrypt
    | decrypt => exact Laws.EncodedWord.decrypt
    | gfmul ga gb => exact Laws.EncodedWord.gfmul ga gb
    | subbytes => exact Laws.EncodedWord.subbytes
    | invsubbytes => exact Laws.EncodedWord.invsubbytes
    | shiftrows => exact Laws.EncodedWord.shiftrows
    | invshiftrows => exact Laws.EncodedWord.invshiftrows
    | mixcolumns => exact Laws.EncodedWord.mixcolumns
    | invmixcolumns => exact Laws.EncodedWord.invmixcolumns
    | addroundkey rnd sch => exact Laws.EncodedWord.addroundkey rnd sch
  obtain ⟨-, -, hlegal⟩ := h
  exact hlegal

/-- The B of an ADDROUNDKEY with bits 7..1 clear names one of the two schedules (R102, R106). -/
theorem exists_fieldOfSched {b : Byte} (h : b.extractLsb' 1 7 = 0#7) : ∃ sch, b = fieldOfSched sch := by
  have hb : b.toNat < 2 := by
    have hn := congrArg BitVec.toNat h
    simp only [BitVec.extractLsb'_toNat, Nat.shiftRight_eq_div_pow, BitVec.toNat_ofNat] at hn
    omega
  rcases (by omega : b.toNat = 0 ∨ b.toNat = 1) with h0 | h1
  · exact ⟨.enc, BitVec.eq_of_toNat_eq h0⟩
  · exact ⟨.dec, BitVec.eq_of_toNat_eq h1⟩

/-- A word that R106 calls legal decodes, opcode by opcode. -/
theorem exists_decode_of_legal {w : Word} (h : legal w = true) : ∃ i, decode w = .ok i := by
  rw [legal, Bool.and_eq_true, beq_iff_eq] at h
  obtain ⟨hx, hop⟩ := h
  rw [decode, if_pos hx]
  split_ifs at hop with hplain hkeyexp hgfmul haddroundkey
  · rw [Bool.and_eq_true, beq_iff_eq, beq_iff_eq] at hop
    obtain ⟨ha, hb⟩ := hop
    rw [ha, hb]
    simp only [List.mem_cons, List.not_mem_nil, or_false] at hplain
    rcases hplain with e | e | e | e | e | e | e | e | e <;> rw [e] <;> exact ⟨_, rfl⟩
  · rw [beq_iff_eq] at hop
    rw [hkeyexp, hop]
    exact ⟨_, decodeOp_keyexp _⟩
  · rw [hgfmul]
    exact ⟨_, rfl⟩
  · rw [beq_iff_eq] at hop
    obtain ⟨sch, hsch⟩ := exists_fieldOfSched hop
    rw [haddroundkey, hsch]
    exact ⟨_, decodeOp_addroundkey _ sch⟩

/-- The decoder takes exactly the words that R106 calls legal. -/
theorem legal_iff_exists_decode (w : Word) : legal w = true ↔ ∃ i, decode w = .ok i := by
  refine ⟨exists_decode_of_legal, fun ⟨i, hi⟩ => ?_⟩
  rw [← encode_of_decode hi]
  exact legal_encode i

/-- R106 on the fields as numbers. -/
theorem legal_iff (w : Word) : legal w = true ↔
    fieldX w = 0 ∧
      (((fieldOP w).toNat ∈ [0x00, 0x02, 0x03, 0x10, 0x11, 0x12, 0x13, 0x14, 0x15] ∧ fieldA w = 0 ∧ fieldB w = 0) ∨
        ((fieldOP w).toNat = 0x01 ∧ fieldB w = 0) ∨
        (fieldOP w).toNat = 0x04 ∨
        ((fieldOP w).toNat = 0x16 ∧ (fieldB w).extractLsb' 1 7 = 0#7)) := by
  rw [legal, Bool.and_eq_true, beq_iff_eq]
  refine and_congr_right fun _ => ?_
  split_ifs with hplain hkeyexp hgfmul haddroundkey <;>
    simp only [List.mem_cons, List.not_mem_nil, or_false, BitVec.toNat_eq, BitVec.ofNat_eq_ofNat, BitVec.toNat_ofNat,
      Nat.reducePow, Nat.reduceMod, Bool.and_eq_true, beq_iff_eq, true_iff, false_iff] at * <;>
    omega

/-- Settles O5: R106's condition is `legal`, which holds exactly where the decoder answers a command. -/
theorem decoderAcceptsExactlyTheLegalWords : Obligations.DecoderAcceptsExactlyTheLegalWords := by
  intro w
  have hb : w.extractLsb' 17 7 = (fieldB w).extractLsb' 1 7 := by
    ext j hj
    simp [fieldB, show 1 + j < 8 by omega, show 17 + j = 16 + (1 + j) by omega]
  rw [← legal_iff_exists_decode, legal_iff, hb]
  rfl

end Sys2Proof
end

section
/-! PROOFS. The command words that the spec writes out (R105, R106). -/

namespace Sys2Proof

/-- Settles O1: each word is evaluated. -/
theorem specWordsDecode : Obligations.SpecWordsDecode := by
  unfold Obligations.SpecWordsDecode
  decide

/-- A packed word is its fields shifted to their places, X being 0 (R100). -/
theorem packWord_eq_or (op a b : Byte) :
    packWord op a b = b.setWidth 32 <<< 16 ||| a.setWidth 32 <<< 8 ||| op.setWidth 32 := by
  apply BitVec.eq_of_getLsbD_eq
  intro j hj
  rw [packWord, getLsbD_append4]
  simp only [BitVec.getLsbD_or, BitVec.getLsbD_shiftLeft, BitVec.getLsbD_setWidth]
  split_ifs with hop ha hb
  · simp [show j < 16 by omega, hop, hj]
  · simp [hop, ha, show j - 8 < 32 by omega, hj, BitVec.getLsbD_of_ge op j (by omega)]
  · simp [ha, hop, show j - 16 < 32 by omega, hj, BitVec.getLsbD_of_ge op j (by omega),
      BitVec.getLsbD_of_ge a (j - 8) (by omega)]
  · simp [BitVec.getLsbD_of_ge op j (by omega), BitVec.getLsbD_of_ge a (j - 8) (by omega),
      BitVec.getLsbD_of_ge b (j - 16) (by omega)]

/-- An 8-bit count, zero-extended (R102). -/
theorem setWidth_count {n : Nat} (h : n < 256) : (BitVec.ofNat 8 n).setWidth 32 = BitVec.ofNat 32 n := by
  apply BitVec.eq_of_toNat_eq
  rw [BitVec.toNat_setWidth, BitVec.toNat_ofNat, BitVec.toNat_ofNat, Nat.mod_eq_of_lt h]

/-- Settles O2: the fixed words are evaluated, and an operand stands in its field shifted to its place. -/
theorem specWordsEncode : Obligations.SpecWordsEncode := by
  refine ⟨by decide, by decide, by decide, by decide, by decide, by decide, by decide, by decide, by decide, by decide,
    by decide, by decide, by decide, by decide, by decide, fun n hn => ?_, fun a b => ?_, fun r hr => ?_,
    fun r hr => ?_⟩ <;> rw [encode, packWord_eq_or]
  · rw [setWidth_count hn]
    simp
  · rfl
  · rw [setWidth_count hr]
    simp [fieldOfSched]
  · rw [setWidth_count hr]
    simp [fieldOfSched]

end Sys2Proof
end

section
/-! PROOFS. Acceptance by the checks of R110, completion, and the window between them (R107, R110, R111, R112). -/

namespace Sys2Proof.Machine

/-- Acceptance of a command that a check refuses records the error of the check (R110). -/
theorem accept_refused {i : Instr} {e : CmdError} {s : State} (h : acceptError i s = some e) :
    accept i s = raiseError e s := by
  simp [accept, h]

/-- Acceptance of a command that no check refuses puts it into flight (R110). -/
theorem accept_accepted {i : Instr} {s : State} (h : acceptError i s = none) : accept i s = acceptCommand i s := by
  simp [accept, h]

/-- A legal word written to CMD of an idle core runs the acceptance of its command, with the word in CMD (R75, R110). -/
theorem hostWrite_cmd_accept {w : Word} {i : Instr} {s : State} (hb : s.busy = false) (hidle : s.pending = none)
    (hd : decode w = .ok i) : hostWrite 0x00 w s = .next (accept i (setCmd w s)) :=
  (hostWrite_cmd hb hd).trans (exec_idle i hidle)

/-- An illegal word written to CMD of an idle core is recorded, with the word in CMD (R75, R110). -/
theorem hostWrite_cmd_illegal {w : Word} {r : Reject} {s : State} (hb : s.busy = false) (hd : decode w = .error r) :
    hostWrite 0x00 w s = .next (raiseError .illegalCommand (setCmd w s)) := by
  have hcmd : regAt 0x00 = .cmd := by decide
  rw [hostWrite_idle 0x00 w hb, hcmd]
  simp [writeReg, issueCommand, hd]

/-- Settles O6: the CMD write is the host's action on an idle core, and the engine's turn is the completion. -/
theorem stepRunsTheDecodedCommand : Obligations.StepRunsTheDecodedCommand := by
  refine fun s w i hd => ⟨fun rest hb hidle hhost => ?_, fun hw hr => ?_⟩
  · exact (step_idle_cons hidle hhost).trans (hostWrite_cmd hb hd)
  · rw [step_engine hw hr, engineTurn_ok hd]

/-- Settles O8: the completion step is `exec`, which leaves all of these registers. -/
theorem completionIsOneAtomicStep : Obligations.CompletionIsOneAtomicStep := by
  intro s w i hw hr hd
  obtain ⟨t, he, hpending, hbusy, -, hkey, hcmd, herr, hecode, -, -, hhost, hobserved⟩ := exec_inFlight i hw
  refine ⟨t, ?_, he, hpending, hbusy, herr, hecode, hcmd, hkey, hhost, hobserved⟩
  rw [step_engine hw hr, engineTurn_ok hd, he]

/-- The checks of R110 after the first, on the fields of a legal word. -/
def fieldChecks (op a : Byte) (s : State) : Option CmdError :=
  if op = 0x01#8 ∧ a.toNat ∉ [16, 24, 32] then some .invalidKeySize
  else if op.toNat ∈ [0x02, 0x03, 0x16] ∧ s.kv = false then some .noKey
  else if op = 0x16#8 ∧ s.nr.toNat < a.toNat then some .roundOutOfRange
  else none

/-- What acceptance checks of a command is what R110 checks of the fields of its word. -/
theorem acceptError_eq_fieldChecks {w : Word} {i : Instr} (hd : decode w = .ok i) (s : State) :
    acceptError i s = fieldChecks (fieldOP w) (fieldA w) s := by
  have hwf := wellFormed_of_decode hd
  rw [← encode_of_decode hd]
  cases i with
  | keyexp klen =>
    have hlen : klen < 256 := of_decide_eq_true hwf
    simp [acceptError, fieldChecks, encode, Nat.mod_eq_of_lt hlen, keyParams_none]
  | addroundkey rnd sch =>
    have hrnd : rnd < 256 := of_decide_eq_true hwf
    simp [acceptError, fieldChecks, encode, Nat.mod_eq_of_lt hrnd]
  | encrypt | decrypt => cases hkv : s.kv <;> simp [acceptError, fieldChecks, encode, hkv]
  | nop | gfmul | subbytes | invsubbytes | shiftrows | invshiftrows | mixcolumns | invmixcolumns =>
    simp [acceptError, fieldChecks, encode]

/-- Settles O9: the word is illegal, or the acceptance of its command makes the checks on its fields. -/
theorem acceptanceChecksInOrder : Obligations.AcceptanceChecksInOrder := by
  intro s w hb hidle
  refine ⟨fun hillegal => ?_, fun hlegal => ?_⟩
  · rcases hd : decode w with r | i
    · exact hostWrite_cmd_illegal hb hd
    · rw [(legal_iff_exists_decode w).mpr ⟨i, hd⟩] at hillegal
      cases hillegal
  · obtain ⟨i, hd⟩ := (legal_iff_exists_decode w).mp hlegal
    have hcheck : acceptError i (setCmd w s) = fieldChecks (fieldOP w) (fieldA w) s :=
      (acceptError_cmd i w s).trans (acceptError_eq_fieldChecks hd s)
    rw [hostWrite_cmd_accept hb hidle hd]
    refine ⟨fun hsize => ?_, fun hsize => ⟨fun hkey => ?_, fun hkey => ⟨fun hround => ?_, fun hround => ?_⟩⟩⟩
    · rw [accept_refused (hcheck.trans (if_pos hsize))]
      rfl
    · rw [accept_refused (hcheck.trans ((if_neg hsize).trans (if_pos hkey)))]
      rfl
    · rw [accept_refused (hcheck.trans ((if_neg hsize).trans ((if_neg hkey).trans (if_pos hround))))]
      rfl
    · rw [accept_accepted (hcheck.trans ((if_neg hsize).trans ((if_neg hkey).trans (if_neg hround)))), acceptCommand,
        encode_of_decode hd]
      exact ⟨_, rfl⟩

/-- Settles O10: the conditions are those that leave no check of acceptance to fail. -/
theorem acceptedCommandGoesIntoFlight : Obligations.AcceptedCommandGoesIntoFlight := by
  intro i s hidle hlen hkey hround
  have hcheck : acceptError i s = none := by
    cases i with
    | keyexp klen => rcases hlen klen rfl with rfl | rfl | rfl <;> rfl
    | encrypt => simp [acceptError, hkey (.inl rfl)]
    | decrypt => simp [acceptError, hkey (.inr rfl)]
    | addroundkey rnd sch =>
      obtain ⟨hkv, hnr⟩ := hround rnd sch rfl
      simp [acceptError, hkv, hnr]
    | nop | gfmul | subbytes | invsubbytes | shiftrows | invshiftrows | mixcolumns | invmixcolumns => rfl
  rw [exec_idle i hidle, accept_accepted hcheck]
  exact ⟨_, rfl⟩

/-- The completion of a command does not read ERR and leaves it (R111, R112). -/
theorem exec_inFlight_err (i : Instr) {s : State} {w : Word} (hw : s.pending = some w) (b : Bool) :
    ∃ t, exec i s = .next t ∧ exec i { s with err := b } = .next { t with err := b } := by
  cases i with
  | keyexp klen =>
    refine ⟨_, runCommand_inFlight hw, (runCommand_inFlight (s := { s with err := b }) hw).trans ?_⟩
    cases keyParams klen <;> rfl
  | nop | encrypt | decrypt | gfmul | subbytes | invsubbytes | shiftrows | invshiftrows | mixcolumns | invmixcolumns
  | addroundkey => exact ⟨_, runCommand_inFlight hw, runCommand_inFlight hw⟩

/-- Whether a CMD write to an idle core puts a command into flight depends on KV and NR only (R110). -/
theorem hostWrite_cmd_congr {w : Word} {s s' t t' : State} (hb : s.busy = false) (hidle : s.pending = none)
    (hb' : s'.busy = false) (hidle' : s'.pending = none) (hkv : s'.kv = s.kv) (hnr : s'.nr = s.nr)
    (ht : hostWrite 0x00 w s = .next t) (ht' : hostWrite 0x00 w s' = .next t') :
    t.busy = t'.busy ∧ t.pending = t'.pending := by
  rcases hd : decode w with r | i
  · cases (hostWrite_cmd_illegal hb hd).symm.trans ht
    cases (hostWrite_cmd_illegal hb' hd).symm.trans ht'
    simp [hb, hb', hidle, hidle']
  · cases (hostWrite_cmd_accept hb hidle hd).symm.trans ht
    cases (hostWrite_cmd_accept hb' hidle' hd).symm.trans ht'
    have hsame : acceptError i (setCmd w s') = acceptError i (setCmd w s) := acceptError_congr i hkv hnr
    rcases accept_cases i (setCmd w s) with ⟨e, hcheck, haccept⟩ | ⟨hcheck, haccept⟩ <;> rw [haccept]
    · rw [accept_refused (hsame.trans hcheck)]
      simp [hb, hb', hidle, hidle']
    · rw [accept_accepted (hsame.trans hcheck)]
      exact ⟨rfl, rfl⟩

/-- Settles O16: acceptance checks KV and NR only, and the completion does not read ERR. -/
theorem errorDoesNotBlockCommands : Obligations.ErrorDoesNotBlockCommands :=
  ⟨fun s _ _ _ b hb hidle ht hu => hostWrite_cmd_congr (s' := { s with err := b }) hb hidle hb hidle rfl rfl ht hu,
    fun _ _ i b hw => exec_inFlight_err i hw b⟩

/-- Settles O41: in the window the host reads, polls, or writes in vain, and a reset is excluded. -/
theorem inFlightWindowKeepsWhatExecuteReads : Obligations.InFlightWindowKeepsWhatExecuteReads := by
  intro s t hinv hb hr hnreset hstep
  obtain ⟨w, hw⟩ := Option.isSome_iff_exists.mp (hinv.busyIff.symm.trans hb)
  rw [step_waiting hw hr] at hstep
  rcases hostTurn_cases hstep with ⟨-, rfl⟩ | ⟨a, rest, hhost, hcase⟩
  · exact ⟨⟨rfl, rfl, rfl, rfl, rfl, rfl, rfl, rfl, rfl, rfl, rfl⟩, rfl⟩
  · rcases hcase with ⟨off, -, rfl⟩ | ⟨off, v, -, hwrite⟩ | ⟨rfl, -⟩ | ⟨-, rfl⟩
    · exact ⟨⟨rfl, rfl, rfl, rfl, rfl, rfl, rfl, rfl, rfl, rfl, rfl⟩, rfl⟩
    · cases (hostWrite_busy off v (s := setHost rest (tick s)) hb).symm.trans hwrite
      exact ⟨⟨rfl, rfl, rfl, rfl, rfl, rfl, rfl, rfl, rfl, rfl, rfl⟩, rfl⟩
    · exact absurd ⟨.inr hr, congrArg List.head? hhost⟩ hnreset
    · obtain ⟨l, o, f, hwait⟩ := hostWait_frame (setHost rest (tick s))
      rw [hwait]
      exact ⟨⟨rfl, rfl, rfl, rfl, rfl, rfl, rfl, rfl, rfl, rfl, rfl⟩, rfl⟩

end Sys2Proof.Machine
end

section
/-! PROOFS. A run past a WAIT performs the command in flight, whatever its window (R80, R112, R121, R306). -/

namespace Sys2Proof.Machine

/-- Some number of steps leads from s to t. -/
def Reaches (s t : State) : Prop := ∃ n, runSteps n s = .next t

theorem Reaches.refl (s : State) : Reaches s s := ⟨0, rfl⟩

theorem Reaches.trans {s t u : State} (h : Reaches s t) (h' : Reaches t u) : Reaches s u := by
  obtain ⟨m, hm⟩ := h
  obtain ⟨n, hn⟩ := h'
  exact ⟨m + n, (runSteps_trans hm n).trans hn⟩

theorem Reaches.of_step {s t : State} (h : step s = .next t) : Reaches s t := ⟨1, runSteps_next h 0⟩

theorem SameRegisters.refl (s : State) : SameRegisters s s :=
  ⟨rfl, rfl, rfl, rfl, rfl, rfl, rfl, rfl, rfl, rfl, rfl, rfl, rfl⟩

theorem SameRegisters.trans {s t u : State} (h : SameRegisters s t) (h' : SameRegisters t u) : SameRegisters s u := by
  unfold SameRegisters at *
  simp only [h, h', and_self]

theorem SameRegisters.symm {s t : State} (h : SameRegisters s t) : SameRegisters t s := by
  unfold SameRegisters at *
  simp only [h, and_self]

/-- Idleness is a fact about the registers (R47). -/
theorem State.Idle.of_sameRegisters {s t : State} (h : s.Idle) (hsame : SameRegisters s t) : t.Idle := by
  obtain ⟨hb, hidle⟩ := h
  obtain ⟨-, -, -, hbusy, -, -, -, -, -, -, -, -, hpending⟩ := hsame
  exact ⟨hbusy.trans hb, hpending.trans hidle⟩

/-- The completion of a command reads registers only, so states with the same registers complete alike (R112). -/
theorem exec_inFlight_sameRegisters {i : Instr} {s s' t t' : State} {w : Word} (hsame : SameRegisters s s')
    (hw : s.pending = some w) (h : exec i s = .next t) (h' : exec i s' = .next t') : SameRegisters t t' := by
  obtain ⟨hstate, hkey, hcmd, hbusy, hkv, herr, hecode, hnr, hnk, hgfres, herk, hdrk, hpending⟩ := hsame
  have hbut : SameButErrorRecord s s' := ⟨hstate, hkey, hcmd, hbusy, hkv, hnr, hnk, hgfres, herk, hdrk, hpending⟩
  obtain ⟨u, u', hu, hu', hstate, hkey, hcmd, hbusy, hkv, hnr, hnk, hgfres, herk, hdrk, hpending'⟩ :=
    exec_inFlight_sameButErrorRecord i hw hbut
  obtain ⟨v, hv, -, -, -, -, -, herrt, hecodet, -⟩ := exec_inFlight i hw
  obtain ⟨v', hv', -, -, -, -, -, herrt', hecodet', -⟩ := exec_inFlight i (hpending.trans hw)
  cases hu.symm.trans h
  cases hv.symm.trans h
  cases hu'.symm.trans h'
  cases hv'.symm.trans h'
  exact ⟨hstate, hkey, hcmd, hbusy, hkv, herrt'.trans (herr.trans herrt.symm),
    hecodet'.trans (hecode.trans hecodet.symm), hnr, hnk, hgfres, herk, hdrk, hpending'⟩

/-- A poll of an idle core is a read of STATUS, and the WAIT is over (R121). -/
theorem hostWait_idle {s : State} (h : s.busy = false) : hostWait s = hostRead statusOffset s := by
  simp [hostWait, h]

/-- A poll of a busy core is a read of STATUS, and the WAIT goes on (R121). -/
theorem hostWait_busy {s : State} (h : s.busy = true) :
    hostWait s = setHost (.wait :: s.host) (hostRead statusOffset s) := by
  simp [hostWait, h]

/-- A WAIT of an idle core ends with its first poll (R121). -/
theorem step_wait_idle {s : State} {rest : List HostAction} (hidle : s.Idle) (hhost : s.host = .wait :: rest) :
    step s = .next (hostRead statusOffset { s with host := rest }) := by
  obtain ⟨hb, hpending⟩ := hidle
  have hpoll := hostWait_idle (s := { s with host := rest }) hb
  exact (step_idle_cons hpending hhost).trans (congrArg Host.Outcome.next hpoll)

/-- A poll inside the window leaves the registers and the WAIT, and the window is one step shorter (R121, R300). -/
theorem step_wait_busy {s : State} {w : Word} {n : Nat} {rest : List HostAction} (hw : s.pending = some w)
    (hb : s.busy = true) (hr : s.remaining = n + 1) (hhost : s.host = .wait :: rest) :
    ∃ s', step s = .next s' ∧ SameRegisters s s' ∧ s'.remaining = n ∧ s'.host = .wait :: rest := by
  have hpoll := hostWait_busy (s := { s with remaining := n, host := rest }) hb
  exact ⟨_, (step_waiting_cons hw hr hhost).trans (congrArg Host.Outcome.next hpoll), SameRegisters.refl s, rfl, rfl⟩

/-- The host gets past a WAIT on the command in flight, and the registers are then those of the command's completion
(R112, R306). By induction on the window: each poll leaves the registers and makes it one step shorter. -/
theorem wait_completes {i : Instr} {w : Word} {rest : List HostAction} (hd : decode w = .ok i) :
    ∀ (n : Nat) (s : State), s.pending = some w → s.busy = true → s.remaining = n → s.host = .wait :: rest →
      ∃ t u, Reaches s t ∧ t.Idle ∧ t.host = rest ∧ exec i s = .next u ∧ SameRegisters u t
  | 0, s, hw, _, hr, hhost => by
    obtain ⟨u, he, hpending, hbusy, -, -, -, -, -, -, -, huhost, -⟩ := exec_inFlight i hw
    have hcompletes : step s = .next u := by rw [step_engine hw hr, engineTurn_ok hd, he]
    have hpoll := step_wait_idle ⟨hbusy, hpending⟩ (huhost.trans hhost)
    exact ⟨_, u, (Reaches.of_step hcompletes).trans (.of_step hpoll), ⟨hbusy, hpending⟩, rfl, he, SameRegisters.refl u⟩
  | n + 1, s, hw, hb, hr, hhost => by
    obtain ⟨s', hpoll, hsame, hr', hhost'⟩ := step_wait_busy hw hb hr hhost
    have ⟨_, _, _, hbusy, _, _, _, _, _, _, _, _, hpending⟩ := hsame
    obtain ⟨t, u', hreach, hidle, hrest, he', hregs⟩ :=
      wait_completes hd n s' (hpending.trans hw) (hbusy.trans hb) hr' hhost'
    obtain ⟨u, he⟩ := exec_next i s
    exact ⟨t, u, (Reaches.of_step hpoll).trans hreach, hidle, hrest, he,
      (exec_inFlight_sameRegisters hsame hw he he').trans hregs⟩

/-- Settles O44: past the WAIT the registers are those of the completion, which reads no window. -/
theorem resultDoesNotDependOnLatency : Obligations.ResultDoesNotDependOnLatency := by
  intro s rest m n hinv hb hhost
  obtain ⟨w, hw⟩ := Option.isSome_iff_exists.mp (hinv.busyIff.symm.trans hb)
  obtain ⟨-, i, hd, -⟩ := hinv.inFlight w hw
  obtain ⟨t, u, ⟨j, hj⟩, hidle, hrest, he, hregs⟩ := wait_completes hd m { s with remaining := m } hw hb rfl hhost
  obtain ⟨t', u', ⟨k, hk⟩, -, hrest', he', hregs'⟩ := wait_completes hd n { s with remaining := n } hw hb rfl hhost
  have hsame : SameRegisters { s with remaining := m } { s with remaining := n } := SameRegisters.refl s
  exact ⟨j, k, t, t', hj, hk, hidle, hrest, hrest',
    hregs.symm.trans ((exec_inFlight_sameRegisters hsame hw he he').trans hregs')⟩

/-- A command line of an idle core runs the acceptance of the command (R80, R110). -/
theorem step_commandLine {s : State} {i : Instr} {rest : List HostAction} (hidle : s.Idle)
    (hwf : i.wellFormed = true) (hhost : s.host = commandLine i :: rest) :
    step s = .next (accept i (setCmd (encode i) { s with host := rest })) := by
  obtain ⟨hb, hpending⟩ := hidle
  exact (step_idle_cons hpending hhost).trans
    (hostWrite_cmd_accept (s := { s with host := rest }) hb hpending (decode_encode hwf))

/-- A command line that acceptance takes puts the command into flight and leaves the other registers (R110). -/
theorem step_commandLine_accepted {s : State} {i : Instr} {rest : List HostAction} (hidle : s.Idle)
    (hwf : i.wellFormed = true) (hcheck : acceptError i s = none) (hhost : s.host = commandLine i :: rest) :
    ∃ s', step s = .next s' ∧ s'.host = rest ∧
      SameRegisters { s with cmd := encode i, pending := some (encode i), busy := true } s' := by
  have hcheck' : acceptError i (setCmd (encode i) { s with host := rest }) = none :=
    (acceptError_congr i rfl rfl).trans hcheck
  rw [step_commandLine hidle hwf hhost, accept_accepted hcheck']
  exact ⟨_, rfl, rfl, SameRegisters.refl _⟩

/-- A command that acceptance takes, issued and waited for, leaves the registers of its completion (R110, R112). -/
theorem issue_wait_completes {s : State} {i : Instr} {rest : List HostAction} (hidle : s.Idle)
    (hwf : i.wellFormed = true) (hcheck : acceptError i s = none) (hhost : s.host = commandLine i :: .wait :: rest) :
    ∃ t u, Reaches s t ∧ t.Idle ∧ t.host = rest ∧
      exec i { s with cmd := encode i, pending := some (encode i), busy := true } = .next u ∧ SameRegisters u t := by
  obtain ⟨s', hissue, hhost', hsame⟩ := step_commandLine_accepted hidle hwf hcheck hhost
  have ⟨_, _, _, hbusy, _, _, _, _, _, _, _, _, hpending⟩ := hsame
  obtain ⟨t, u', hreach, htidle, hrest, he', hregs⟩ :=
    wait_completes (decode_encode hwf) _ s' hpending hbusy rfl hhost'
  obtain ⟨u, he⟩ := exec_next i { s with cmd := encode i, pending := some (encode i), busy := true }
  exact ⟨t, u, (Reaches.of_step hissue).trans hreach, htidle, hrest, he,
    (exec_inFlight_sameRegisters hsame rfl he he').trans hregs⟩

/-- Settles O45: the invariant is not needed for it. -/
theorem issueAndWaitPerformsTheWholeCommand : Obligations.IssueAndWaitPerformsTheWholeCommand := by
  intro s i rest _ hidle hwf hcheck hhost
  obtain ⟨t, u, ⟨n, hn⟩, htidle, hrest, he, hregs⟩ := issue_wait_completes hidle hwf hcheck hhost
  exact ⟨n, t, u, hn, htidle, hrest, he, hregs⟩

end Sys2Proof.Machine
end

section
/-! PROOFS. Host programs from an idle core: staging words, SETKEY, ENC and NewCipher (R121, R122). -/

namespace Sys2Proof.Machine

/-- CLRERR clears the error record (R43, R121). -/
theorem step_clrerr {s : State} {rest : List HostAction} (hidle : s.Idle) (hhost : s.host = clrerr ++ rest) :
    step s = .next { s with host := rest, err := false, ecode := 0 } := by
  obtain ⟨hb, hpending⟩ := hidle
  obtain ⟨hclear, -⟩ := statusWriteClearsTheRecord { s with host := rest } 0x00000004
  exact (step_idle_cons hpending hhost).trans (hclear hb (by decide))

/-- `WR` of n + 1 words is `WR` of n words and then of the last (R121). -/
theorem writeWords_succ (base : Nat) (k : List Byte) (n : Nat) :
    writeWords base k (n + 1) =
      writeWords base k n ++ [.write (BitVec.ofNat 8 (base + n)) (wordOfBytes k n)] := by
  simp [writeWords, List.range_succ]

/-- Staging n words of a byte string in a bank of N registers, where `load x l` is the state with x in the bank and the
host at l: the first n registers hold the words. -/
theorem reaches_writeWords {N base : Nat} {load : Vector Word N → List HostAction → State}
    (hwrite : ∀ (i : Fin N) (v : Word) (x : Vector Word N) (l : List HostAction),
      step (load x (.write (BitVec.ofNat 8 (base + i.val)) v :: l)) = .next (load (x.set i.val v) l))
    (k : List Byte) (x : Vector Word N) : ∀ (n : Nat) (rest : List HostAction), n ≤ N →
      ∃ y, Reaches (load x (writeWords base k n ++ rest)) (load y rest) ∧
        ∀ i : Fin N, i.val < n → y.get i = wordOfBytes k i.val
  | 0, rest, _ => ⟨x, Reaches.refl _, fun _ h => absurd h (Nat.not_lt_zero _)⟩
  | n + 1, rest, hn => by
    rw [writeWords_succ, List.append_assoc]
    obtain ⟨y, hreach, hy⟩ := reaches_writeWords hwrite k x n
      (.write (BitVec.ofNat 8 (base + n)) (wordOfBytes k n) :: rest) (Nat.le_of_succ_le hn)
    obtain ⟨hnew, hold⟩ := get_set_word y ⟨n, hn⟩ (wordOfBytes k n)
    refine ⟨_, hreach.trans (.of_step (hwrite ⟨n, hn⟩ _ y rest)), fun i hi => ?_⟩
    rcases Nat.lt_succ_iff_lt_or_eq.mp hi with hlt | heq
    · rw [hold i (Fin.ne_of_val_ne hlt.ne)]
      exact hy i hlt
    · rw [Fin.eq_of_val_eq (j := ⟨n, hn⟩) heq]
      exact hnew

/-- A write of the host to an idle core is a write to the register at the offset (R75, R80). -/
theorem step_write_idle {s : State} {off : BitVec 8} {r : Reg} {v : Word} {rest : List HostAction} (hidle : s.Idle)
    (hreg : regAt off = r) (hhost : s.host = .write off v :: rest) :
    step s = writeReg r v { s with host := rest } := by
  obtain ⟨hb, hpending⟩ := hidle
  rw [← hreg]
  exact (step_idle_cons hpending hhost).trans (hostWrite_idle off v (s := { s with host := rest }) hb)

/-- A write to KEY[i] of an idle core (R75). -/
theorem step_writeKey {s : State} (hidle : s.Idle) (i : Fin 8) (v : Word) (x : Vector Word 8) (l : List HostAction) :
    step { s with key := x, host := .write (BitVec.ofNat 8 (0x08 + i.val)) v :: l } =
      .next { s with key := x.set i.val v, host := l } := by
  have hoff : (BitVec.ofNat 8 (0x08 + i.val)).toNat = 0x08 + i.val := Nat.mod_eq_of_lt (by omega)
  have hreg : regAt (BitVec.ofNat 8 (0x08 + i.val)) = .key i := regAt_eq hoff
  exact step_write_idle (s := { s with key := x, host := _ }) hidle hreg rfl

/-- A write to STATE[c] of an idle core (R75). -/
theorem step_writeState {s : State} (hidle : s.Idle) (c : Fin 4) (v : Word) (x : Block) (l : List HostAction) :
    step { s with state := x, host := .write (BitVec.ofNat 8 (0x04 + c.val)) v :: l } =
      .next { s with state := x.set c.val v, host := l } := by
  have hoff : (BitVec.ofNat 8 (0x04 + c.val)).toNat = 0x04 + c.val := Nat.mod_eq_of_lt (by omega)
  have hreg : regAt (BitVec.ofNat 8 (0x04 + c.val)) = .state c := regAt_eq hoff
  exact step_write_idle (s := { s with state := x, host := _ }) hidle hreg rfl

/-- LDBLK leaves the block in STATE (R22, R121). -/
theorem reaches_ldblk {s : State} {p : List Byte} {rest : List HostAction} (hidle : s.Idle)
    (hhost : s.host = ldblk p ++ rest) : Reaches s { s with state := blockOfBytes p, host := rest } := by
  obtain ⟨b, hreach, hb⟩ := reaches_writeWords (load := fun x l => { s with state := x, host := l })
    (step_writeState hidle) p s.state 4 rest le_rfl
  have hblock : b = blockOfBytes p := Vector.ext fun c hc => by
    simpa [blockOfBytes, Vector.get_eq_getElem] using hb ⟨c, hc⟩ hc
  rw [hblock] at hreach
  rwa [← ldblk, ← hhost] at hreach

/-- Byte r of word i of a byte string is its byte 4i + r (R19, R76). -/
theorem byte_wordOfBytes (k : List Byte) (i : Nat) (r : Fin 4) : byte (wordOfBytes k i) r = k.getD (4 * i + r.val) 0 :=
  match r with
  | 0 => byte_word_zero ..
  | 1 => byte_word_one ..
  | 2 => byte_word_two ..
  | 3 => byte_word_three ..

/-- The key bytes read back from the words that LDKEY stages (R33, R76). -/
theorem keyBytes_of_words {key : Vector Word 8} {k : List Byte} {nk : Nat} (hnk : nk ≤ 8) (hlen : k.length = 4 * nk)
    (hwords : ∀ i : Fin 8, i.val < nk → key.get i = wordOfBytes k i.val) : keyBytes key (4 * nk) = k := by
  apply List.ext_getElem
  · simp [keyBytes, hlen]
  intro n _ hn
  have hword : key.getD (n / 4) 0 = wordOfBytes k (n / 4) := by
    simpa [Vector.getD, Vector.get_eq_getElem, show n / 4 < 8 by omega] using
      hwords ⟨n / 4, by omega⟩ (show n / 4 < nk by omega)
  simp only [keyBytes, List.getElem_map, List.getElem_range, keyByte]
  rw [hword, byte_wordOfBytes, Nat.div_add_mod, List.getD_eq_getElem k 0 hn]

/-- LDKEY of a key of a legal length leaves its bytes in KEY (R33, R121). -/
theorem reaches_ldkey {s : State} {k : List Byte} {nk nr : Nat} {rest : List HostAction} (hidle : s.Idle)
    (hk : keyParams k.length = some (nk, nr)) (hhost : s.host = ldkey k ++ rest) :
    ∃ key, Reaches s { s with key := key, host := rest } ∧ keyBytes key (4 * nk) = k := by
  have hnk : nk ≤ 8 ∧ k.length = 4 * nk := by
    rcases keyParams_cases hk with ⟨h, hp⟩ | ⟨h, hp⟩ | ⟨h, hp⟩ <;> cases hp <;> exact ⟨by decide, h⟩
  obtain ⟨hle, hlen⟩ := hnk
  have hld : ldkey k = writeWords 0x08 k nk := by
    rw [ldkey, hk, Option.isSome_some, if_pos rfl, hlen, Nat.mul_div_cancel_left nk (by decide)]
  obtain ⟨key, hreach, hwords⟩ := reaches_writeWords (load := fun x l => { s with key := x, host := l })
    (step_writeKey hidle) k s.key nk rest hle
  rw [← hld, ← hhost] at hreach
  exact ⟨key, hreach, keyBytes_of_words hle hlen hwords⟩

/-- The completion of KEYEXP of a legal length (R174). -/
theorem exec_keyexp_inFlight {klen nk nr : Nat} {s t : State} {w : Word} (hk : keyParams klen = some (nk, nr))
    (h : exec (.keyexp klen) s = .next t) (hw : s.pending = some w) : t = finishCommand (expandKey nk nr s) := by
  cases (runCommand_inFlight hw).symm.trans h
  rw [hk]

/-- SETKEY of a key of a legal length leaves its encryption schedule, and no error recorded (R121, R174). -/
theorem setkey_completes {s : State} {k : List Byte} {nk nr : Nat} {rest : List HostAction} (hidle : s.Idle)
    (hk : keyParams k.length = some (nk, nr)) (hhost : s.host = setkey k ++ rest) :
    ∃ t, Reaches s t ∧ t.Idle ∧ t.host = rest ∧ t.kv = true ∧ t.err = false ∧ t.nr = BitVec.ofNat 4 nr ∧
      t.erk = scheduleBuf (keyExpansion k nk nr) nr := by
  have hlen : keyexpLength k.length = k.length := keyexpLength_of_keyParams hk
  simp only [setkey, hlen, List.append_assoc] at hhost
  have hclear := step_clrerr hidle hhost
  obtain ⟨key, hload, hkey⟩ := reaches_ldkey (s := { s with host := _, err := false, ecode := 0 }) hidle hk rfl
  obtain ⟨t, u, hwait, htidle, hrest, he, -, -, -, -, hkv, herr, -, hnr, -, -, herk, -⟩ :=
    issue_wait_completes (s := { s with key := key, host := _, err := false, ecode := 0 }) (i := .keyexp k.length)
      hidle (hlen ▸ keyexpLength_wellFormed k.length) (by simp [acceptError, hk]) rfl
  obtain rfl := exec_keyexp_inFlight hk he rfl
  refine ⟨t, (Reaches.of_step hclear).trans (hload.trans hwait), htidle, hrest, hkv, herr, hnr, herk.trans ?_⟩
  rw [finishCommand_erk, expandKey_erk, encSchedule, hkey]

/-- What a register holds is not changed by what the host does next or has read. -/
theorem regValue_host_observed (s : State) (l : List HostAction) (o : List Observation) (r : Reg) :
    regValue { s with host := l, observed := o } r = regValue s r := by
  cases r <;> rfl

/-- Reads of an idle core observe the registers at the offsets, the latest first (R29, R74). -/
theorem reaches_reads {rest : List HostAction} : ∀ (offs : List (BitVec 8)) {s : State}, s.Idle →
    s.host = offs.map .read ++ rest →
    Reaches s { s with
      host := rest
      observed := (offs.map fun off => ⟨off, regValue s (regAt off)⟩).reverse ++ s.observed }
  | [], s, _, hhost => by
    obtain rfl : s.host = rest := hhost
    exact Reaches.refl s
  | off :: offs, s, hidle, hhost => by
    obtain ⟨hb, hpending⟩ := hidle
    have hread := hostRead_exact (s := { s with host := offs.map .read ++ rest }) (readIsFree_idle off hb)
    have hstep := (step_idle_cons hpending hhost).trans (congrArg Host.Outcome.next hread)
    have hrest := reaches_reads offs (s := { s with
      host := offs.map .read ++ rest
      observed := ⟨off, regValue s (regAt off)⟩ :: s.observed }) ⟨hb, hpending⟩ rfl
    have hreach := (Reaches.of_step hstep).trans hrest
    simpa only [regValue_host_observed, List.map_cons, List.reverse_cons, List.append_assoc, List.singleton_append]
      using hreach

/-- The completion of ENCRYPT (R220). -/
theorem exec_encrypt_inFlight {s t : State} {w : Word} (h : exec .encrypt s = .next t) (hw : s.pending = some w) :
    t = finishCommand (setBlock (cipher s.state s.erk s.nr.toNat) s) := by
  cases (runCommand_inFlight hw).symm.trans h
  rfl

/-- ENC of a block with a key leaves the cipher of the block in STATE and among the reads (R121, R220). -/
theorem encBlock_completes {s : State} {p : List Byte} {rest : List HostAction} (hidle : s.Idle) (hkv : s.kv = true)
    (hhost : s.host = encBlock p ++ rest) :
    ∃ t, Reaches s t ∧ t.Idle ∧ t.host = rest ∧ t.kv = true ∧ t.err = s.err ∧
      t.state = cipher (blockOfBytes p) s.erk s.nr.toNat ∧
      t.observed.take 4 =
        [⟨0x07, t.state.get 3⟩, ⟨0x06, t.state.get 2⟩, ⟨0x05, t.state.get 1⟩, ⟨0x04, t.state.get 0⟩] := by
  simp only [encBlock, List.append_assoc] at hhost
  have hload := reaches_ldblk hidle hhost
  obtain ⟨t, u, hwait, htidle, hrest, he, hstate, -, -, -, hkvt, herr, -⟩ :=
    issue_wait_completes (s := { s with state := blockOfBytes p, host := _ }) (i := .encrypt) (rest := stblk ++ rest)
      hidle rfl (by simp [acceptError, hkv]) rfl
  obtain rfl := exec_encrypt_inFlight he rfl
  have hreads := reaches_reads [0x04, 0x05, 0x06, 0x07] htidle hrest
  exact ⟨_, hload.trans (hwait.trans hreads), htidle, rfl, hkvt.trans hkv, herr, hstate, rfl⟩

/-- NR holds the round count of every legal length in its 4 bits (R11, R45). -/
theorem toNat_rounds {n nk nr : Nat} (hk : keyParams n = some (nk, nr)) : (BitVec.ofNat 4 nr).toNat = nr := by
  rcases keyParams_cases hk with ⟨-, h⟩ | ⟨-, h⟩ | ⟨-, h⟩ <;> cases h <;> rfl

/-- Settles O59: ENC after SETKEY, with the schedule and the round count that SETKEY left. -/
theorem setKeyThenEncryptReturnsTheCiphertext : Obligations.SetKeyThenEncryptReturnsTheCiphertext := by
  intro s k p nk nr rest _ hidle hk _ hhost
  obtain ⟨t, hsetkey, htidle, hthost, hkv, herr, hnr, herk⟩ := setkey_completes hidle hk hhost
  obtain ⟨u, henc, huidle, hrest, hukv, huerr, hstate, hreads⟩ := encBlock_completes htidle hkv hthost
  obtain ⟨n, hn⟩ := hsetkey.trans henc
  rw [herk, hnr, toNat_rounds hk] at hstate
  exact ⟨n, u, hn, huidle, hrest, hukv, huerr.trans herr, hstate, hreads⟩

/-- A command that acceptance refuses, issued and waited for, records its error and changes only CMD besides (R110). -/
theorem issue_wait_refused {s : State} {i : Instr} {e : CmdError} {rest : List HostAction} (hidle : s.Idle)
    (hwf : i.wellFormed = true) (hcheck : acceptError i s = some e) (hhost : s.host = commandLine i :: .wait :: rest) :
    ∃ t, Reaches s t ∧ t.host = rest ∧ SameRegisters (raiseError e (setCmd (encode i) s)) t := by
  have hcheck' : acceptError i (setCmd (encode i) { s with host := .wait :: rest }) = some e :=
    (acceptError_congr i rfl rfl).trans hcheck
  have hissue := step_commandLine hidle hwf hhost
  rw [accept_refused hcheck'] at hissue
  have hpoll := step_wait_idle (s := raiseError e (setCmd (encode i) { s with host := .wait :: rest })) hidle rfl
  exact ⟨_, (Reaches.of_step hissue).trans (.of_step hpoll), rfl, SameRegisters.refl _⟩

/-- SETKEY of a key of another length stages nothing, and its KEYEXP is refused after CLRERR (R121, R122, R251). -/
theorem setkey_refused {s : State} {k : List Byte} {rest : List HostAction} (hidle : s.Idle)
    (hk : keyParams k.length = none) (hhost : s.host = setkey k ++ rest) :
    ∃ t v, Reaches s t ∧ t.host = rest ∧ SameRegisters { s with cmd := v, err := true, ecode := 1 } t := by
  have hld : ldkey k = [] := by rw [ldkey, hk, Option.isSome_none, if_neg Bool.false_ne_true]
  simp only [setkey, hld, List.append_nil, List.append_assoc] at hhost
  have hcheck : ∀ t, acceptError (.keyexp (keyexpLength k.length)) t = some .invalidKeySize := fun t => by
    rw [acceptError, keyexpLength_refused hk, Option.isNone_none, if_pos rfl]
  obtain ⟨t, hwait, hrest, hsame⟩ :=
    issue_wait_refused (s := { s with host := _, err := false, ecode := 0 }) (rest := rest) hidle
      (keyexpLength_wellFormed k.length) (hcheck _) rfl
  exact ⟨t, _, (Reaches.of_step (step_clrerr hidle hhost)).trans hwait, hrest, hsame⟩

/-- Settles O60: the refused SETKEY records its error and nothing else but CMD, and the last read is of STATUS. -/
theorem newCipherReportsInvalidKeySize : Obligations.NewCipherReportsInvalidKeySize := by
  intro s k rest _ hidle h16 h24 h32 hhost
  rw [newCipher, List.append_assoc] at hhost
  obtain ⟨t, v, hsetkey, hthost, hsame⟩ := setkey_refused hidle (keyParams_none.mpr ⟨h16, h24, h32⟩) hhost
  have htidle : t.Idle := State.Idle.of_sameRegisters (s := { s with cmd := v, err := true, ecode := 1 }) hidle hsame
  obtain ⟨n, hn⟩ := hsetkey.trans (reaches_reads [0x01] htidle hthost)
  obtain ⟨hstate, hkey, -, -, hkv, herr, hecode, hnr, hnk, -, herk, hdrk, -⟩ := hsame
  exact ⟨n, _, hn, htidle, rfl, herr, hecode, rfl, hkv, hnr, hnk, herk, hdrk, hkey, hstate⟩

end Sys2Proof.Machine
end

section
/-! PROOFS. The multiplier of GF(2^8): it is bilinear, x comes out of a product, and so the product is commutative and
associative (R130 to R135). -/

namespace Sys2Proof.Machine

/-- XOR of two XORs, regrouped. -/
theorem xor_xor_xor_comm (a b c d : Byte) : (a ^^^ b) ^^^ (c ^^^ d) = (a ^^^ c) ^^^ (b ^^^ d) := by ac_rfl

/-- `xtime` as R132 writes it: the shift, XORed with 0x1b when bit 7 is shifted out. -/
theorem xtime_eq (a : Byte) : xtime a = (a <<< 1) ^^^ (if a.getLsbD 7 then 0x1b else 0x00) := by
  unfold xtime
  split <;> simp

/-- `xtime` is additive. -/
theorem xtime_xor (a b : Byte) : xtime (a ^^^ b) = xtime a ^^^ xtime b := by
  simp only [xtime_eq, BitVec.shiftLeft_xor_distrib, BitVec.getLsbD_xor]
  rw [xor_xor_xor_comm]
  congr 1
  cases a.getLsbD 7 <;> cases b.getLsbD 7 <;> rfl

/-- One iteration of the multiplier, then the others (R130). -/
theorem gfIterate_succ (n : Nat) (p a b : Byte) :
    gfIterate (n + 1) ⟨p, a, b⟩ = gfIterate n ⟨if b.getLsbD 0 then p ^^^ a else p, xtime a, b >>> 1⟩ := rfl

/-- The accumulator is additive in the first operand. -/
theorem gfIterate_xor_left (n : Nat) (p q a c b : Byte) :
    (gfIterate n ⟨p ^^^ q, a ^^^ c, b⟩).p = (gfIterate n ⟨p, a, b⟩).p ^^^ (gfIterate n ⟨q, c, b⟩).p := by
  induction n generalizing p q a c b with
  | zero => rfl
  | succ n ih =>
    simp only [gfIterate_succ, xtime_xor, ← ih]
    cases b.getLsbD 0
    · rfl
    · simp only [if_true, xor_xor_xor_comm p q]

/-- The accumulator is additive in the second operand. -/
theorem gfIterate_xor_right (n : Nat) (p q a b d : Byte) :
    (gfIterate n ⟨p ^^^ q, a, b ^^^ d⟩).p = (gfIterate n ⟨p, a, b⟩).p ^^^ (gfIterate n ⟨q, a, d⟩).p := by
  induction n generalizing p q a b d with
  | zero => rfl
  | succ n ih =>
    simp only [gfIterate_succ, BitVec.getLsbD_xor, BitVec.ushiftRight_xor_distrib, ← ih]
    have hp : (if (b.getLsbD 0 ^^ d.getLsbD 0) then (p ^^^ q) ^^^ a else p ^^^ q) =
        (if b.getLsbD 0 then p ^^^ a else p) ^^^ (if d.getLsbD 0 then q ^^^ a else q) := by
      cases b.getLsbD 0 <;> cases d.getLsbD 0
      · rfl
      · exact BitVec.xor_assoc ..
      · show p ^^^ q ^^^ a = p ^^^ a ^^^ q
        ac_rfl
      · show p ^^^ q = p ^^^ a ^^^ (q ^^^ a)
        rw [xor_xor_xor_comm, BitVec.xor_self, BitVec.xor_zero]
    rw [hp]

/-- `xtime` of the accumulator is the accumulator of the first operand's `xtime`. -/
theorem gfIterate_xtime_left (n : Nat) (p a b : Byte) :
    (gfIterate n ⟨xtime p, xtime a, b⟩).p = xtime (gfIterate n ⟨p, a, b⟩).p := by
  induction n generalizing p a b with
  | zero => rfl
  | succ n ih =>
    simp only [gfIterate_succ, ← ih]
    cases b.getLsbD 0
    · rfl
    · simp only [if_true, xtime_xor]

/-- The product distributes over XOR on the left (R133). -/
theorem gfmul_xor_left (a b c : Byte) : gfmul (a ^^^ b) c = gfmul a c ^^^ gfmul b c :=
  gfIterate_xor_left 8 0 0 a b c

/-- The product distributes over XOR on the right (R133). -/
theorem gfmul_xor_right (a b c : Byte) : gfmul a (b ^^^ c) = gfmul a b ^^^ gfmul a c :=
  gfIterate_xor_right 8 0 0 a b c

/-- A factor x comes out of the left operand. -/
theorem gfmul_xtime_left (a b : Byte) : gfmul (xtime a) b = xtime (gfmul a b) :=
  gfIterate_xtime_left 8 0 a b

/-- The power x^n comes out of the left operand. -/
theorem gfmul_iterate_xtime_left (n : Nat) (a b : Byte) : gfmul (xtime^[n] a) b = xtime^[n] (gfmul a b) :=
  (show Function.Semiconj (gfmul · b) xtime xtime from fun a => gfmul_xtime_left a b).iterate_right n a

/-- A property of the powers x^0 to x^7 that XOR keeps holds of every byte whose bits from n on are 0: bit n is taken off
by the XOR with x^n. -/
theorem byte_induction_of_bits_below {P : Byte → Prop} (hpow : ∀ i : Fin 8, P (xtime^[i.val] 0x01#8))
    (hxor : ∀ a b, P a → P b → P (a ^^^ b)) {n : Nat} (hn : n ≤ 8) {a : Byte} (ha : ∀ k, n ≤ k → a.getLsbD k = false) :
    P a := by
  have hpowBits : ∀ i : Fin 8, xtime^[i.val] 0x01#8 = BitVec.twoPow 8 i.val := by decide
  induction n generalizing a with
  | zero =>
    obtain rfl : a = 0x01#8 ^^^ 0x01#8 := BitVec.eq_of_getLsbD_eq fun k _ => by simp [ha]
    exact hxor _ _ (hpow 0) (hpow 0)
  | succ n ih =>
    have hx := hpow ⟨n, hn⟩
    rw [hpowBits] at hx
    cases hbit : a.getLsbD n with
    | false =>
      refine ih (by omega) fun k hk => ?_
      obtain rfl | hlt := Nat.eq_or_lt_of_le hk
      · exact hbit
      · exact ha k hlt
    | true =>
      have hrest : P (a ^^^ BitVec.twoPow 8 n) := by
        refine ih (by omega) fun k hk => ?_
        rw [BitVec.getLsbD_xor, BitVec.getLsbD_twoPow]
        obtain rfl | hlt := Nat.eq_or_lt_of_le hk
        · simpa [hbit] using hn
        · simp [ha k hlt, Nat.ne_of_lt hlt]
      have hback := hxor _ _ hrest hx
      rwa [BitVec.xor_assoc, BitVec.xor_self, BitVec.xor_zero] at hback

/-- A property of the powers x^0 to x^7 that XOR keeps holds of every byte: a byte is the sum of the powers that its
bits name (R131). -/
theorem byte_induction {P : Byte → Prop} (pow : ∀ i : Fin 8, P (xtime^[i.val] 0x01#8))
    (xor : ∀ a b, P a → P b → P (a ^^^ b)) (a : Byte) : P a :=
  byte_induction_of_bits_below pow xor (le_refl 8) fun k hk => BitVec.getLsbD_of_ge a k hk

/-- 0x01 is a unit on the left (R133). -/
@[simp] theorem one_gfmul (b : Byte) : gfmul 0x01#8 b = b := by
  induction b using byte_induction with
  | pow i => revert i; decide
  | xor a b ha hb => rw [gfmul_xor_right, ha, hb]

/-- A product with the power x^n on the left is n times `xtime`. -/
theorem xPow_gfmul (n : Nat) (b : Byte) : gfmul (xtime^[n] 0x01#8) b = xtime^[n] b := by
  rw [gfmul_iterate_xtime_left, one_gfmul]

/-- The product is commutative (R133): powers of x multiply by adding their exponents. -/
theorem gfmul_comm (a b : Byte) : gfmul a b = gfmul b a := by
  induction a using byte_induction with
  | xor a c ha hc => rw [gfmul_xor_left, gfmul_xor_right, ha, hc]
  | pow i =>
    induction b using byte_induction with
    | xor b d hb hd => rw [gfmul_xor_left, gfmul_xor_right, hb, hd]
    | pow j => rw [xPow_gfmul, xPow_gfmul, ← Function.iterate_add_apply, ← Function.iterate_add_apply, Nat.add_comm]

/-- The product is associative (R133). -/
theorem gfmul_assoc (a b c : Byte) : gfmul (gfmul a b) c = gfmul a (gfmul b c) := by
  induction a using byte_induction with
  | pow i => rw [xPow_gfmul, xPow_gfmul, gfmul_iterate_xtime_left]
  | xor a d ha hd => simp only [gfmul_xor_left, ha, hd]

/-- 0x01 is a unit on the right (R133). -/
@[simp] theorem gfmul_one (a : Byte) : gfmul a 0x01#8 = a := by rw [gfmul_comm, one_gfmul]

/-- 0x00 is a zero on the right (R133). -/
@[simp] theorem gfmul_zero (a : Byte) : gfmul a 0x00#8 = 0x00#8 := by
  simpa using gfmul_xor_right a 0x00#8 0x00#8

/-- 0x00 is a zero on the left (R133). -/
@[simp] theorem zero_gfmul (a : Byte) : gfmul 0x00#8 a = 0x00#8 := by rw [gfmul_comm, gfmul_zero]

/-- A product with the power x^n on the right is n times `xtime` (R132). -/
theorem gfmul_xPow (a : Byte) (n : Nat) : gfmul a (xtime^[n] 0x01#8) = xtime^[n] a := by rw [gfmul_comm, xPow_gfmul]

/-- Settles O47: each coefficient is an XOR of powers of x, and the product distributes over it. -/
theorem multiplesByTheMatrixCoefficients : Obligations.MultiplesByTheMatrixCoefficients := by
  intro a
  have h1 : gfmul a 0x02#8 = xtime a := gfmul_xPow a 1
  have h2 : gfmul a 0x04#8 = xtime (xtime a) := gfmul_xPow a 2
  have h3 : gfmul a 0x08#8 = xtime (xtime (xtime a)) := gfmul_xPow a 3
  refine ⟨h1.symm, xtime_eq a, ?_, ?_, ?_, ?_, ?_⟩
  · show gfmul a (0x02#8 ^^^ 0x01#8) = _
    rw [gfmul_xor_right, h1, gfmul_one]
  · show gfmul a (0x08#8 ^^^ 0x01#8) = _
    rw [gfmul_xor_right, h3, gfmul_one]
  · show gfmul a (0x08#8 ^^^ 0x02#8 ^^^ 0x01#8) = _
    rw [gfmul_xor_right, gfmul_xor_right, h3, h1, gfmul_one]
  · show gfmul a (0x08#8 ^^^ 0x04#8 ^^^ 0x01#8) = _
    rw [gfmul_xor_right, gfmul_xor_right, h3, h2, gfmul_one]
  · show gfmul a (0x08#8 ^^^ 0x04#8 ^^^ 0x02#8) = _
    rw [gfmul_xor_right, gfmul_xor_right, h3, h2, h1]

/-- Settles O27: the completion of GFMUL stores the product, which is the accumulator after eight iterations. -/
theorem gfmulCompletes : Obligations.GfmulCompletes := by
  unfold Obligations.GfmulCompletes
  constructor
  · exact fun s ga gb hw => runCommand_inFlight hw
  · decide

end Sys2Proof.Machine
end

section
/-! PROOFS. Inverses in GF(2^8): squaring, the powers x^(2^n), and `ginv` (R133). -/

namespace Sys2Proof.Machine

/-- The square in GF(2^8). -/
def gfSquare (a : Byte) : Byte := gfmul a a

/-- Squaring is additive: the two mixed products are equal and cancel. -/
theorem gfSquare_xor : Function.Semiconj₂ gfSquare (· ^^^ ·) (· ^^^ ·) := fun a b => by
  simp only [gfSquare, gfmul_xor_left, gfmul_xor_right, gfmul_comm b a]
  rw [BitVec.xor_comm (gfmul a b) (gfmul b b), xor_xor_xor_comm, BitVec.xor_self, BitVec.xor_zero]

/-- Every byte is its own 256th power. -/
theorem iterate_gfSquare_eight (a : Byte) : gfSquare^[8] a = a := by
  induction a using byte_induction with
  | pow i => revert i; decide +kernel
  | xor a b ha hb => rw [gfSquare_xor.iterate 8 a b, ha, hb]

/-- a divides its powers a^(2^n). -/
theorem exists_iterate_gfSquare_eq_gfmul (a : Byte) (n : Nat) : ∃ w, gfSquare^[n] a = gfmul a w := by
  induction n with
  | zero => exact ⟨0x01#8, (gfmul_one a).symm⟩
  | succ n ih =>
    obtain ⟨w, hw⟩ := ih
    exact ⟨gfmul w (gfmul a w), by rw [Function.iterate_succ_apply', hw, gfSquare, gfmul_assoc]⟩

/-- Every byte is a multiple of its own square: x = x^256 = x^128 · x^128. -/
theorem exists_gfmul_gfmul_eq_self (x : Byte) : ∃ v, gfmul x (gfmul x v) = x := by
  obtain ⟨w, hw⟩ := exists_iterate_gfSquare_eq_gfmul x 7
  refine ⟨gfmul w w, ?_⟩
  calc gfmul x (gfmul x (gfmul w w))
      = gfmul (gfmul x w) (gfmul x w) := by
        rw [← gfmul_assoc x w w, gfmul_comm (gfmul x w) w, ← gfmul_assoc x w]
    _ = gfSquare^[8] x := by rw [Function.iterate_succ_apply', hw, gfSquare]
    _ = x := iterate_gfSquare_eight x

/-- The only bytes that are their own squares are 0x00 and 0x01. -/
theorem eq_zero_or_one_of_gfmul_self : ∀ e : Byte, gfmul e e = e → e = 0x00#8 ∨ e = 0x01#8 := by decide

/-- Every nonzero byte has an inverse (R133). With x = x · e and e = x · v, e is its own square; it is not 0x00, since x
is not, so it is 0x01. -/
theorem exists_gfmul_eq_one {x : Byte} (hx : x ≠ 0x00#8) : ∃ v, gfmul x v = 0x01#8 := by
  obtain ⟨v, hv⟩ := exists_gfmul_gfmul_eq_self x
  have hidem : gfmul (gfmul x v) (gfmul x v) = gfmul x v := calc
    gfmul (gfmul x v) (gfmul x v) = gfmul (gfmul x (gfmul x v)) v := by
      rw [gfmul_assoc x (gfmul x v) v, gfmul_comm (gfmul x v) v, gfmul_assoc]
    _ = gfmul x v := by rw [hv]
  rcases eq_zero_or_one_of_gfmul_self _ hidem with h | h
  · rw [h, gfmul_zero] at hv
    exact absurd hv.symm hx
  · exact ⟨v, h⟩

/-- `allBytes` has every byte. -/
theorem mem_allBytes (x : Byte) : x ∈ allBytes :=
  List.mem_map.mpr ⟨x.toNat, List.mem_range.mpr x.isLt, by simp⟩

/-- `ginv` is a search of the bytes for an inverse. -/
theorem ginv_eq_find (x : Byte) : ginv x = (allBytes.find? fun y => gfmul x y == 0x01#8).getD 0x00#8 := by
  rw [ginv, List.headD_eq_head?_getD, List.head?_filter]

/-- `ginv` of a nonzero byte is an inverse of it (R133). -/
theorem gfmul_ginv {x : Byte} (hx : x ≠ 0x00#8) : gfmul x (ginv x) = 0x01#8 := by
  obtain ⟨y, hy⟩ := exists_gfmul_eq_one hx
  rw [ginv_eq_find]
  cases hfind : allBytes.find? fun y => gfmul x y == 0x01#8 with
  | none => exact absurd (beq_iff_eq.mpr hy) (List.find?_eq_none.mp hfind y (mem_allBytes y))
  | some z => exact eq_of_beq (List.find?_some (p := fun y => gfmul x y == 0x01#8) hfind)

/-- The convention of R133 for 0x00, which has no inverse. -/
theorem ginv_zero : ginv 0x00#8 = 0x00#8 := by
  have hnone : (allBytes.find? fun y => gfmul 0x00#8 y == 0x01#8) = none :=
    List.find?_eq_none.mpr fun y _ => by simp
  rw [ginv_eq_find, hnone, Option.getD_none]

/-- Multiplication by `ginv x` undoes multiplication by a nonzero x. -/
theorem ginv_gfmul_cancel {x : Byte} (hx : x ≠ 0x00#8) (y : Byte) : gfmul (ginv x) (gfmul x y) = y := by
  rw [← gfmul_assoc, gfmul_comm (ginv x), gfmul_ginv hx, one_gfmul]

/-- A product is 0x00 only if a factor is (R133). -/
theorem eq_zero_or_eq_zero_of_gfmul {a b : Byte} (h : gfmul a b = 0x00#8) : a = 0x00#8 ∨ b = 0x00#8 := by
  refine or_iff_not_imp_left.mpr fun ha => ?_
  rw [← ginv_gfmul_cancel ha b, h, gfmul_zero]

/-- `ginv x` is the only inverse of a nonzero x (R133). -/
theorem gfmul_eq_one_iff {x : Byte} (hx : x ≠ 0x00#8) (y : Byte) : gfmul x y = 0x01#8 ↔ y = ginv x := by
  refine ⟨fun h => ?_, fun h => h ▸ gfmul_ginv hx⟩
  rw [← ginv_gfmul_cancel hx y, h, gfmul_one]

/-- Settles O46: the bytes with XOR and `gfmul` are a field, with the inverses that `ginv` finds. -/
theorem gfmulIsAField : Obligations.GfmulIsAField :=
  ⟨gfmul_comm, gfmul_assoc, gfmul_xor_right, fun a => ⟨gfmul_one a, gfmul_zero a⟩,
    fun _ _ => eq_zero_or_eq_zero_of_gfmul, fun _ => gfmul_eq_one_iff, ginv_zero⟩

end Sys2Proof.Machine
end

section
/-! PROOFS. The constant tables: SBOX by the inverse of its affine map, INV_SBOX, and RCON as the powers of x; the byte
rotation of a word (R150 to R158, R170). -/

namespace Sys2Proof.Machine

/-- The inverse of the affine map of R151: the inverse of its linear part, then XOR with 0x05, the image of 0x63. -/
def sboxAffineInv (y : Byte) : Byte := y.rotateLeft 1 ^^^ y.rotateLeft 3 ^^^ y.rotateLeft 6 ^^^ 0x05#8

/-- `sboxAffine` with R151's `rotl8` written as shifts. -/
theorem sboxAffine_eq_shifts (b : Byte) :
    sboxAffine b = b ^^^ (b <<< 1 ||| b >>> 7) ^^^ (b <<< 2 ||| b >>> 6) ^^^ (b <<< 3 ||| b >>> 5) ^^^
      (b <<< 4 ||| b >>> 4) ^^^ 0x63 := rfl

theorem sboxAffine_sboxAffineInv : ∀ y : Byte, sboxAffine (sboxAffineInv y) = y := by decide +kernel

/-- The entry of SBOX at a nonzero byte, back through the affine map, is an inverse of that byte. -/
theorem gfmul_sboxAffineInv_sbox :
    ∀ x : Byte, x ≠ 0x00#8 → gfmul x (sboxAffineInv (sbox x)) = 0x01#8 := by decide +kernel

/-- SBOX, back through the affine map, is `ginv` (R151): an inverse in the field is the only one. -/
theorem sboxAffineInv_sbox (x : Byte) : sboxAffineInv (sbox x) = ginv x := by
  by_cases hx : x = 0x00#8
  · subst hx
    rw [ginv_zero]
    decide
  · exact (gfmul_eq_one_iff hx _).mp (gfmul_sboxAffineInv_sbox x hx)

/-- SBOX is the field inverse followed by the affine map (R151). -/
theorem sbox_eq_sboxAffine_ginv (x : Byte) : sbox x = sboxAffine (ginv x) := by
  rw [← sboxAffineInv_sbox, sboxAffine_sboxAffineInv]

/-- INV_SBOX undoes SBOX, entry by entry (R154). -/
theorem invSbox_sbox : Function.LeftInverse invSbox sbox := by
  unfold Function.LeftInverse
  decide +kernel

/-- SBOX undoes INV_SBOX (R154): SBOX is injective on the finitely many bytes, so it reaches every byte. -/
theorem sbox_invSbox : Function.RightInverse invSbox sbox :=
  invSbox_sbox.rightInverse_of_surjective (Finite.surjective_of_injective invSbox_sbox.injective)

/-- SBOX has no fixed point (R154). -/
theorem sbox_ne_self : ∀ x : Byte, sbox x ≠ x := by decide +kernel

/-- Settles O48: SBOX by way of the uniqueness of the field inverse; INV_SBOX is its inverse on one side by its entries,
and so on the other. -/
theorem sboxesAreInverseThenAffine : Obligations.SboxesAreInverseThenAffine := fun x =>
  ⟨(sbox_eq_sboxAffine_ginv x).trans (sboxAffine_eq_shifts _), invSbox_sbox x, sbox_invSbox x, sbox_ne_self x⟩

/-- RCON[j] is the power x^j (R155). -/
theorem rcon_eq_xPow : ∀ j : Fin 16, rcon j.val = xtime^[j.val] 0x01#8 := by decide

/-- RCON[j + 1] is RCON[j] times x (R155). -/
theorem rcon_succ {j : Nat} (hj : j + 1 < 16) : rcon (j + 1) = gfmul (rcon j) 0x02#8 := by
  have hprev : rcon j = xtime^[j] 0x01#8 := rcon_eq_xPow ⟨j, by omega⟩
  have hpow : rcon (j + 1) = xtime^[j + 1] 0x01#8 := rcon_eq_xPow ⟨j + 1, hj⟩
  rw [hpow, hprev, Function.iterate_succ_apply']
  exact (gfmul_xPow _ 1).symm

/-- RotWord moves every byte one place to the front (R170); the sum in `Fin 4` is mod 4. -/
theorem byte_rotWord (w : Word) (k : Fin 4) : byte (rotWord w) k = byte w (k + 1) := by
  match k with
  | 0 => exact byte_word_zero ..
  | 1 => exact byte_word_one ..
  | 2 => exact byte_word_two ..
  | 3 => exact byte_word_three ..

/-- A rotation left by 8 bits moves every byte one place to the front. -/
theorem byte_shiftLeft_or_ushiftRight (w : Word) (k : Fin 4) : byte (w <<< 8 ||| w >>> 24) k = byte w (k + 1) := by
  apply BitVec.eq_of_getLsbD_eq
  intro i hi
  match k with
  | 0 | 1 | 2 | 3 => grind [byte]

/-- RotWord is a rotation left by 8 bits (R170). -/
theorem rotWord_eq_shifts (w : Word) : rotWord w = w <<< 8 ||| w >>> 24 :=
  word_ext fun k => by rw [byte_rotWord, byte_shiftLeft_or_ushiftRight]

/-- RotWord on the four bytes of a word (R170). -/
@[simp] theorem rotWord_word (b0 b1 b2 b3 : Byte) : rotWord (word b0 b1 b2 b3) = word b1 b2 b3 b0 := by
  simp [rotWord]

/-- Settles O49: the entries of RCON are powers of x, and RotWord moves bytes as the rotation does. -/
theorem roundConstantsAndRotation : Obligations.RoundConstantsAndRotation := by
  refine ⟨rfl, fun j hj => ?_, rfl, rotWord_word, rotWord_eq_shifts, by decide⟩
  obtain ⟨i, hi⟩ := Nat.exists_eq_succ_of_ne_zero hj
  rw [hi]
  exact rcon_succ (by omega)

end Sys2Proof.Machine
end

section
/-! PROOFS. MixColumn and InvMixColumn as products with a fixed polynomial over GF(2^8) modulo x^4 + 1; the two
polynomials are inverse to each other (R201, R204, R206). -/

namespace Sys2Proof.Machine

/-- The product of two polynomials over GF(2^8) modulo x^4 + 1, byte k of a word the coefficient of x^k. -/
def polyMul (c w : Word) : Word :=
  word
    (gfmul (byte c 0) (byte w 0) ^^^ gfmul (byte c 3) (byte w 1) ^^^
      gfmul (byte c 2) (byte w 2) ^^^ gfmul (byte c 1) (byte w 3))
    (gfmul (byte c 1) (byte w 0) ^^^ gfmul (byte c 0) (byte w 1) ^^^
      gfmul (byte c 3) (byte w 2) ^^^ gfmul (byte c 2) (byte w 3))
    (gfmul (byte c 2) (byte w 0) ^^^ gfmul (byte c 1) (byte w 1) ^^^
      gfmul (byte c 0) (byte w 2) ^^^ gfmul (byte c 3) (byte w 3))
    (gfmul (byte c 3) (byte w 0) ^^^ gfmul (byte c 2) (byte w 1) ^^^
      gfmul (byte c 1) (byte w 2) ^^^ gfmul (byte c 0) (byte w 3))

/-- The polynomial product is associative: both sides add up the same sixteen triple products in each coefficient. -/
theorem polyMul_assoc (c d w : Word) : polyMul (polyMul c d) w = polyMul c (polyMul d w) := by
  simp only [polyMul, byte_word_zero, byte_word_one, byte_word_two, byte_word_three, gfmul_xor_left, gfmul_xor_right,
    gfmul_assoc]
  congr 1 <;> ac_rfl

/-- The polynomial 1 is a unit of the product. -/
theorem one_polyMul (w : Word) : polyMul 0x01000000#32 w = w := by
  have h : byte 0x01000000#32 0 = 0x01#8 ∧ byte 0x01000000#32 1 = 0x00#8 ∧ byte 0x01000000#32 2 = 0x00#8 ∧
      byte 0x01000000#32 3 = 0x00#8 := by decide
  obtain ⟨h0, h1, h2, h3⟩ := h
  simp [polyMul, h0, h1, h2, h3]

/-- MixColumn multiplies by 3x^3 + x^2 + x + 2 (R201). -/
theorem mixColumn_eq_polyMul (w : Word) : mixColumn w = polyMul 0x02010103#32 w := by
  have h : byte 0x02010103#32 0 = 0x02#8 ∧ byte 0x02010103#32 1 = 0x01#8 ∧ byte 0x02010103#32 2 = 0x01#8 ∧
      byte 0x02010103#32 3 = 0x03#8 := by decide
  obtain ⟨h0, h1, h2, h3⟩ := h
  simp [polyMul, mixColumn, h0, h1, h2, h3]

/-- InvMixColumn multiplies by 11x^3 + 13x^2 + 9x + 14 (R204). -/
theorem invMixColumn_eq_polyMul (w : Word) : invMixColumn w = polyMul 0x0e090d0b#32 w := rfl

/-- MixColumn undoes InvMixColumn: the product of the two polynomials is 1 (R206). -/
theorem mixColumn_invMixColumn (w : Word) : mixColumn (invMixColumn w) = w := by
  have hone : polyMul 0x02010103#32 0x0e090d0b#32 = 0x01000000#32 := by decide
  rw [mixColumn_eq_polyMul, invMixColumn_eq_polyMul, ← polyMul_assoc, hone, one_polyMul]

end Sys2Proof.Machine
end

section
/-! PROOFS. The key expansion: what each word of it is, the reversed schedule, and the two buffers KEYEXP fills (R172 to
R177, R180). -/

namespace Sys2Proof.Machine

/-- A word of a schedule buffer: the schedule's word, and 0 past the live words (R36, R37). -/
theorem scheduleBuf_getD (w : List Word) {nr j : Nat} (hj : j < 60) :
    (scheduleBuf w nr).getD j 0 = if j < 4 * (nr + 1) then w.getD j 0 else 0 := by
  simpa [Vector.getD, Vector.get_eq_getElem, hj] using scheduleBuf_get w nr ⟨j, hj⟩

/-- A live word of a schedule buffer. -/
theorem scheduleBuf_getD_live (w : List Word) {nr j : Nat} (hnr : nr ≤ 14) (hj : j < 4 * (nr + 1)) :
    (scheduleBuf w nr).getD j 0 = w.getD j 0 := by
  rw [scheduleBuf_getD w (by omega), if_pos hj]

@[simp] theorem keyWords_length (k : List Byte) (nk : Nat) : (keyWords k nk).length = nk := by
  simp [keyWords]

/-- Word i of the key's words is KEY[i] (R33, R172 step 1). -/
theorem keyWords_keyBytes_getD (key : Vector Word 8) {nk i : Nat} (hi : i < nk) :
    (keyWords (keyBytes key (4 * nk)) nk).getD i 0 = key.getD i 0 := by
  have hword : (keyWords (keyBytes key (4 * nk)) nk).getD i 0 = wordOfBytes (keyBytes key (4 * nk)) i := by
    simp [keyWords, wordOfBytes, hi]
  refine hword.trans (word_ext fun r => ?_)
  have hn : 4 * i + r.val < 4 * nk := by omega
  have hdiv : (4 * i + r.val) / 4 = i := by omega
  have hmod : (4 * i + r.val) % 4 = r.val := by omega
  rw [byte_wordOfBytes]
  simp [keyBytes, keyByte, hn, hdiv, hmod]

/-- The iterations of R172 step 2 that make `r` of `w`: n words follow `w`, each the recurrence's of words before it. -/
structure ExpandsTo (nk n : Nat) (w r : List Word) : Prop where
  isPrefix : w <+: r
  length : r.length = w.length + n
  recurrence : ∀ i, w.length ≤ i → i < r.length →
    r.getD i 0 = r.getD (i - nk) 0 ^^^ scheduleTerm nk i (r.getD (i - 1) 0)

/-- A word of a list is a word of every list that begins with it. -/
theorem getD_of_prefix {v w : List Word} (h : v <+: w) {i : Nat} (hi : i < v.length) : w.getD i 0 = v.getD i 0 := by
  obtain ⟨u, rfl⟩ := h
  exact List.getD_append v u 0 i hi

theorem expandStep_length (nk : Nat) (w : List Word) (i : Nat) : (expandStep nk w i).length = w.length + 1 := by
  simp [expandStep]

/-- The word that one iteration adds at the end (R172 step 2). -/
theorem expandStep_getD_length (nk : Nat) (w : List Word) :
    (expandStep nk w w.length).getD w.length 0 =
      w.getD (w.length - nk) 0 ^^^ scheduleTerm nk w.length (w.getD (w.length - 1) 0) := by
  simp [expandStep]

/-- One iteration before the others: the word it adds stays, and so do the two words it was made of. -/
theorem ExpandsTo.cons {nk n : Nat} {w r : List Word} (hnk : 0 < nk) (hw : 0 < w.length)
    (h : ExpandsTo nk n (expandStep nk w w.length) r) : ExpandsTo nk (n + 1) w r := by
  have hlen := expandStep_length nk w w.length
  have hp : w <+: r := (List.prefix_append ..).trans h.isPrefix
  refine ⟨hp, by rw [h.length]; omega, fun i hi hlt => ?_⟩
  obtain rfl | hlater := Nat.eq_or_lt_of_le hi
  · rw [getD_of_prefix h.isPrefix (by omega), getD_of_prefix hp (by omega), getD_of_prefix hp (by omega),
      expandStep_getD_length]
  · exact h.recurrence i (by omega) hlt

/-- The loop of R172 step 2, from the end of a list. -/
theorem expandsTo_foldl_expandStep {nk : Nat} (hnk : 0 < nk) (n : Nat) {w : List Word} (hw : 0 < w.length) :
    ExpandsTo nk n w ((List.range' w.length n).foldl (expandStep nk) w) := by
  induction n generalizing w with
  | zero => exact ⟨List.prefix_refl w, rfl, fun i hi hlt => absurd hlt hi.not_gt⟩
  | succ n ih =>
    have hlen := expandStep_length nk w w.length
    have hnext := ih (show 0 < (expandStep nk w w.length).length by omega)
    rw [hlen] at hnext
    rw [List.range'_succ, List.foldl_cons]
    exact hnext.cons hnk hw

/-- KeyExpansion makes the encryption schedule of the key's words (R172). -/
theorem expandsTo_keyExpansion (k : List Byte) {nk : Nat} (hnk : 0 < nk) (nr : Nat) :
    ExpandsTo nk (4 * (nr + 1) - nk) (keyWords k nk) (keyExpansion k nk nr) := by
  simpa only [keyExpansion, keyWords_length] using
    expandsTo_foldl_expandStep hnk (4 * (nr + 1) - nk) (hnk.trans_eq (keyWords_length k nk).symm)

/-- The first words of the encryption schedule are the key words (R172 step 1, R174). -/
theorem encSchedule_getD_key (key : Vector Word 8) {nk i : Nat} (hi : i < nk) (nr : Nat) :
    (encSchedule key nk nr).getD i 0 = key.getD i 0 := by
  have h := expandsTo_keyExpansion (keyBytes key (4 * nk)) (Nat.zero_lt_of_lt hi) nr
  exact (getD_of_prefix h.isPrefix ((keyWords_length ..).symm ▸ hi)).trans (keyWords_keyBytes_getD key hi)

/-- The later words of the encryption schedule obey the recurrence (R172 step 2, R174). -/
theorem encSchedule_getD_recurrence (key : Vector Word 8) {nk nr i : Nat} (hnk : 0 < nk) (hi : nk ≤ i)
    (hlt : i < 4 * (nr + 1)) :
    (encSchedule key nk nr).getD i 0 = (encSchedule key nk nr).getD (i - nk) 0 ^^^
      scheduleTerm nk i ((encSchedule key nk nr).getD (i - 1) 0) := by
  have h := expandsTo_keyExpansion (keyBytes key (4 * nk)) hnk nr
  exact h.recurrence i (by rwa [keyWords_length]) (by rw [h.length, keyWords_length]; omega)

/-- Word c of round i of the reversed schedule (R176). -/
theorem inverseSchedule_getD (e : List Word) {nr i c : Nat} (hi : i ≤ nr) (hc : c < 4) :
    (inverseSchedule e nr).getD (4 * i + c) 0 =
      if 0 < i ∧ i < nr then invMixColumn (e.getD (4 * (nr - i) + c) 0) else e.getD (4 * (nr - i) + c) 0 := by
  have hlt : 4 * i + c < 4 * (nr + 1) := by omega
  have hdiv : (4 * i + c) / 4 = i := by omega
  have hmod : (4 * i + c) % 4 = c := by omega
  rw [List.getD_eq_getElem _ _ (by simpa [inverseSchedule] using hlt)]
  simp only [inverseSchedule, List.getElem_map, List.getElem_range, hdiv, hmod]

/-- RconWord as the shift that R171 writes: the constant is byte 0, and the other three bytes are 0. -/
theorem rconWord_eq_shiftLeft (nk i : Nat) : rconWord nk i = (rcon (i / nk - 1)).setWidth 32 <<< 24 := by
  apply BitVec.eq_of_getLsbD_eq
  intro j hj
  rw [rconWord, word, getLsbD_append4]
  grind

/-- What the three legal lengths have in common (R11). -/
theorem keyParams_of_mem {klen nk nr : Nat} (h : (klen, nk, nr) ∈ [(16, 4, 10), (24, 6, 12), (32, 8, 14)]) :
    keyParams klen = some (nk, nr) ∧ 4 ≤ nk ∧ nk ≤ 4 * (nr + 1) ∧ nr ≤ 14 := by
  simp only [List.mem_cons, Prod.mk.injEq, List.not_mem_nil, or_false] at h
  rcases h with ⟨rfl, rfl, rfl⟩ | ⟨rfl, rfl, rfl⟩ | ⟨rfl, rfl, rfl⟩ <;> decide

/-- Settles O32: each clause is read off the word of the encryption schedule or of its inverse that the buffer holds. -/
theorem keyexpCompletes : Obligations.KeyexpCompletes := by
  intro s klen nk nr hmem hw
  obtain ⟨hparams, hnk, hle, hnr⟩ := keyParams_of_mem hmem
  refine ⟨scheduleBuf (encSchedule s.key nk nr) nr, scheduleBuf (inverseSchedule (encSchedule s.key nk nr) nr) nr,
    ?_, fun i hi => ?_, fun i hi hlt => ?_, fun i c hi hc => ?_, fun j hj hlt => ?_⟩
  · obtain ⟨t, ht⟩ := exec_next (.keyexp klen) s
    rw [ht, exec_keyexp_inFlight hparams ht hw]
    rfl
  · rw [scheduleBuf_getD_live _ hnr (by omega), encSchedule_getD_key _ hi]
  · rw [scheduleBuf_getD_live _ hnr hlt, scheduleBuf_getD_live _ hnr (by omega),
      scheduleBuf_getD_live _ hnr (by omega), ← rconWord_eq_shiftLeft]
    exact encSchedule_getD_recurrence s.key (by omega) hi hlt
  · rw [scheduleBuf_getD_live _ hnr (by omega), scheduleBuf_getD_live _ hnr (by omega), inverseSchedule_getD _ hi hc]
  · rw [scheduleBuf_getD _ hlt, scheduleBuf_getD _ hlt, if_neg (by omega), if_neg (by omega)]
    exact ⟨rfl, rfl⟩

/-- Settles O52: by the clauses of O32, and MixColumn undoes the InvMixColumn of the interior rounds. -/
theorem decryptionScheduleMirrorsEncryption : Obligations.DecryptionScheduleMirrorsEncryption := by
  intro s klen nk nr hmem hw
  obtain ⟨-, hnk, -, -⟩ := keyParams_of_mem hmem
  obtain ⟨e, d, hexec, hkey, -, hrev, -⟩ := keyexpCompletes s klen nk nr hmem hw
  refine ⟨_, hexec, fun c hc => ⟨?_, ?_, hkey c (by omega), fun i h0 hi => ?_⟩⟩
  · simpa using hrev 0 c (Nat.zero_le nr) hc
  · simpa using hrev nr c le_rfl hc
  · rw [hrev i c hi.le hc, if_pos ⟨h0, hi⟩, mixColumn_invMixColumn]

end Sys2Proof.Machine
end

section
/-! PROOFS. The round transforms by their bytes and words: substitution, row rotation, column mixing and the round key
(R190 to R207). -/

namespace Sys2Proof.Machine

/-- SubBytes is SubWord on every column (R191). -/
theorem subBytes_get (s : Block) (c : Fin 4) : (subBytes s).get c = subWord (s.get c) := by
  simp [subBytes, Block.ofBytes, Block.byteAt, subWord, Vector.get_eq_getElem]

/-- InvSubBytes is InvSubWord on every column (R193). -/
theorem invSubBytes_get (s : Block) (c : Fin 4) : (invSubBytes s).get c = invSubWord (s.get c) := by
  simp [invSubBytes, Block.ofBytes, Block.byteAt, invSubWord, Vector.get_eq_getElem]

/-- InvSubBytes undoes SubBytes, byte by byte (R194). -/
@[simp] theorem invSubBytes_subBytes (s : Block) : invSubBytes (subBytes s) = s := by
  refine block_ext fun r c => ?_
  rw [invSubBytes_byteAt, subBytes_byteAt, invSbox_sbox]

/-- SubBytes undoes InvSubBytes, byte by byte (R194). -/
@[simp] theorem subBytes_invSubBytes (s : Block) : subBytes (invSubBytes s) = s := by
  refine block_ext fun r c => ?_
  rw [subBytes_byteAt, invSubBytes_byteAt, sbox_invSbox]

/-- InvShiftRows undoes ShiftRows: the column indices add up mod 4 (R200). -/
@[simp] theorem invShiftRows_shiftRows (s : Block) : invShiftRows (shiftRows s) = s := by
  refine block_ext fun r c => ?_
  rw [invShiftRows_byteAt, shiftRows_byteAt, sub_add_cancel]

/-- ShiftRows undoes InvShiftRows (R200). -/
@[simp] theorem shiftRows_invShiftRows (s : Block) : shiftRows (invShiftRows s) = s := by
  refine block_ext fun r c => ?_
  rw [shiftRows_byteAt, invShiftRows_byteAt, add_sub_cancel_right]

/-- ShiftRows moves bytes and SubBytes replaces each where it stands (R200). -/
theorem shiftRows_subBytes (s : Block) : shiftRows (subBytes s) = subBytes (shiftRows s) := by
  refine block_ext fun r c => ?_
  rw [shiftRows_byteAt, subBytes_byteAt, subBytes_byteAt, shiftRows_byteAt]

/-- InvShiftRows moves bytes and InvSubBytes replaces each where it stands (R200). -/
theorem invShiftRows_invSubBytes (s : Block) : invShiftRows (invSubBytes s) = invSubBytes (invShiftRows s) := by
  refine block_ext fun r c => ?_
  rw [invShiftRows_byteAt, invSubBytes_byteAt, invSubBytes_byteAt, invShiftRows_byteAt]

/-- Settles O51: the laws of the two substitutions and the two rotations. -/
theorem substitutionAndRotationLaws : Obligations.SubstitutionAndRotationLaws := fun s =>
  ⟨fun c => ⟨subBytes_get s c, invSubBytes_get s c⟩, fun r c => ⟨subBytes_byteAt s r c, invSubBytes_byteAt s r c⟩,
    invSubBytes_subBytes s, subBytes_invSubBytes s, invShiftRows_shiftRows s, shiftRows_invShiftRows s,
    shiftRows_subBytes s, invShiftRows_invSubBytes s⟩

/-- XOR of two words is XOR of their bytes (R19). -/
@[simp] theorem byte_xor (x y : Word) (k : Fin 4) : byte (x ^^^ y) k = byte x k ^^^ byte y k :=
  BitVec.extractLsb'_xor

/-- Byte r of the polynomial product adds up the bytes of the second factor from row r on, row indices mod 4: the
product by a circulant matrix (R201, R204). -/
theorem byte_polyMul (c w : Word) (r : Fin 4) :
    byte (polyMul c w) r = gfmul (byte c 0) (byte w r) ^^^ gfmul (byte c 3) (byte w (r + 1)) ^^^
      gfmul (byte c 2) (byte w (r + 2)) ^^^ gfmul (byte c 1) (byte w (r + 3)) := by
  match r with
  | 0 => exact byte_word_zero ..
  | 1 => exact (byte_word_one ..).trans (by ac_rfl)
  | 2 => exact (byte_word_two ..).trans (by ac_rfl)
  | 3 => exact (byte_word_three ..).trans (by ac_rfl)

/-- The polynomial product is additive in the second factor. -/
theorem polyMul_xor (c x y : Word) : polyMul c (x ^^^ y) = polyMul c x ^^^ polyMul c y := by
  refine word_ext fun r => ?_
  simp only [byte_xor, byte_polyMul, gfmul_xor_right]
  ac_rfl

/-- InvMixColumn undoes MixColumn: the product of the two polynomials is 1 (R206). -/
theorem invMixColumn_mixColumn (w : Word) : invMixColumn (mixColumn w) = w := by
  have hone : polyMul 0x0e090d0b#32 0x02010103#32 = 0x01000000#32 := by decide
  rw [mixColumn_eq_polyMul, invMixColumn_eq_polyMul, ← polyMul_assoc, hone, one_polyMul]

/-- MixColumn is additive (R206). -/
theorem mixColumn_xor (x y : Word) : mixColumn (x ^^^ y) = mixColumn x ^^^ mixColumn y := by
  simp only [mixColumn_eq_polyMul, polyMul_xor]

/-- InvMixColumn is additive (R206). -/
theorem invMixColumn_xor (x y : Word) : invMixColumn (x ^^^ y) = invMixColumn x ^^^ invMixColumn y := by
  simp only [invMixColumn_eq_polyMul, polyMul_xor]

/-- Settles O50: the two functions are products with polynomials that are inverse to each other. -/
theorem mixColumnLaws : Obligations.MixColumnLaws :=
  ⟨fun w => ⟨invMixColumn_mixColumn w, mixColumn_invMixColumn w⟩,
    fun x y => ⟨mixColumn_xor x y, invMixColumn_xor x y⟩⟩

/-- MixColumns multiplies every column by the circulant matrix with first row 2 3 1 1 (R201). -/
theorem mixColumns_byteAt (s : Block) (r c : Fin 4) :
    (mixColumns s).byteAt r c = gfmul 0x02 (s.byteAt r c) ^^^ gfmul 0x03 (s.byteAt (r + 1) c) ^^^
      s.byteAt (r + 2) c ^^^ s.byteAt (r + 3) c := by
  have h1 : byte 0x02010103#32 1 = 0x01#8 := by decide
  have h2 : byte 0x02010103#32 2 = 0x01#8 := by decide
  rw [Block.byteAt, mixColumns_get, mixColumn_eq_polyMul, byte_polyMul, h1, h2, one_gfmul, one_gfmul]
  rfl

/-- InvMixColumns multiplies every column by the circulant matrix with first row 14 11 13 9 (R204). -/
theorem invMixColumns_byteAt (s : Block) (r c : Fin 4) :
    (invMixColumns s).byteAt r c = gfmul 0x0e (s.byteAt r c) ^^^ gfmul 0x0b (s.byteAt (r + 1) c) ^^^
      gfmul 0x0d (s.byteAt (r + 2) c) ^^^ gfmul 0x09 (s.byteAt (r + 3) c) := by
  rw [Block.byteAt, invMixColumns_get, invMixColumn_eq_polyMul, byte_polyMul]
  rfl

/-- Block byte n of one block is block byte m of another if the two are in one row and the bytes there agree (R22). -/
theorem byteN_eq_byteN {b s : Block} {n m : Fin 16} (hrow : m.val % 4 = n.val % 4)
    (h : b.byteAt ⟨n.val % 4, by omega⟩ ⟨n.val / 4, by omega⟩ = s.byteAt ⟨n.val % 4, by omega⟩ ⟨m.val / 4, by omega⟩) :
    b.byteN n = s.byteN m := by
  simp only [Block.byteN, hrow]
  exact h

/-- A word of a round key inside the buffer (R207, R208). -/
theorem roundKeyWord_eq_get (k : ScheduleBuf) {i : Nat} {c : Fin 4} {j : Fin 60} (hj : j.val = 4 * i + c.val) :
    roundKeyWord k i c = k.get j := by
  rw [roundKeyWord, ← hj]
  simp [Vector.getD, Vector.get_eq_getElem]

end Sys2Proof.Machine
end

section
/-! PROOFS. The seven step commands: what their acceptance needs, and what their completion does to STATE (R190 to
R212). -/

namespace Sys2Proof.Machine

/-- Settles O29: the rotations move columns mod 4, and the tables P and Q list them as block bytes. -/
theorem rowRotationCommandsComplete : Obligations.RowRotationCommandsComplete := by
  refine ⟨fun s hw => ⟨shiftRows s.state, runCommand_inFlight hw, ?_⟩,
    fun s hw => ⟨invShiftRows s.state, runCommand_inFlight hw, ?_⟩⟩
  · have hrows : ∀ r c d : Fin 4, d.val = (c.val + r.val) % 4 → (shiftRows s.state).byteAt r c = s.state.byteAt r d :=
      fun r c d hd => by rw [shiftRows_byteAt, Fin.ext (a := d) (b := c + r) hd]
    refine ⟨hrows, fun n m hm => ?_⟩
    have hP : m.val % 4 = n.val % 4 ∧ m.val / 4 = (n.val / 4 + n.val % 4) % 4 := by
      revert n m
      decide
    obtain ⟨hrow, hcol⟩ := hP
    exact byteN_eq_byteN hrow (hrows _ _ _ hcol)
  · have hrows : ∀ r c d : Fin 4, c.val = (d.val + r.val) % 4 →
        (invShiftRows s.state).byteAt r c = s.state.byteAt r d :=
      fun r c d hc => by rw [invShiftRows_byteAt, Fin.ext (a := c) (b := d + r) hc, add_sub_cancel_right]
    refine ⟨hrows, fun n m hm => ?_⟩
    have hQ : m.val % 4 = n.val % 4 ∧ n.val / 4 = (m.val / 4 + n.val % 4) % 4 := by
      revert n m
      decide
    obtain ⟨hrow, hcol⟩ := hQ
    exact byteN_eq_byteN hrow (hrows _ _ _ hcol)

/-- Settles O28: the completions store the substituted blocks. -/
theorem substitutionCommandsComplete : Obligations.SubstitutionCommandsComplete :=
  ⟨fun s hw => ⟨subBytes s.state, runCommand_inFlight hw, subBytes_byteAt s.state⟩,
    fun s hw => ⟨invSubBytes s.state, runCommand_inFlight hw, invSubBytes_byteAt s.state⟩⟩

/-- Settles O30: the completions store the blocks of mixed columns. -/
theorem columnMixCommandsComplete : Obligations.ColumnMixCommandsComplete :=
  ⟨fun s hw => ⟨mixColumns s.state, runCommand_inFlight hw, mixColumns_byteAt s.state⟩,
    fun s hw => ⟨invMixColumns s.state, runCommand_inFlight hw, invMixColumns_byteAt s.state⟩⟩

/-- Settles O31: the completion stores the block with the round key added, from the buffer that SCH names. -/
theorem addRoundKeyCompletes : Obligations.AddRoundKeyCompletes := by
  refine fun s rnd sch hw => ⟨addRoundKey s.state (s.schedule sch) rnd, runCommand_inFlight hw, fun c j hj => ?_⟩
  rw [addRoundKey_get, roundKeyWord_eq_get _ hj]
  constructor
  · rintro rfl
    rfl
  · rintro rfl
    rfl

/-- ADDROUNDKEY passes the checks of acceptance exactly if there is a key and the round is one of its schedule (R110). -/
theorem acceptError_addroundkey {rnd : Nat} {sch : Sched} {s : State} :
    acceptError (.addroundkey rnd sch) s = none ↔ s.kv = true ∧ rnd ≤ s.nr.toNat := by
  cases hkv : s.kv <;> simp [acceptError, hkv]

/-- With a key there are at most 14 rounds (R11, R53 (b)). -/
theorem SchedulesOfAKey.nr_le {s : State} (h : SchedulesOfAKey s) : s.nr.toNat ≤ 14 := by
  obtain ⟨_, _, _, nr, hp, -, hnr, -, -⟩ := h
  rw [hnr, toNat_rounds hp]
  rcases keyParams_cases hp with ⟨-, h⟩ | ⟨-, h⟩ | ⟨-, h⟩ <;> cases h <;> decide

/-- The completion of ADDROUNDKEY leaves STATE with the round key added (R208). -/
theorem exec_addroundkey_inFlight {rnd : Nat} {sch : Sched} {s t : State} {w : Word} (hw : s.pending = some w)
    (h : exec (.addroundkey rnd sch) s = .next t) : t.state = addRoundKey s.state (s.schedule sch) rnd := by
  cases (runCommand_inFlight hw).symm.trans h
  rfl

/-- AddRoundKey reads the four words of its round key and no other word of the schedule (R207, R209). -/
theorem addRoundKey_congr {s : Block} {k k' : ScheduleBuf} {i : Nat}
    (h : ∀ c, c < 4 → k'.getD (4 * i + c) 0 = k.getD (4 * i + c) 0) : addRoundKey s k' i = addRoundKey s k i := by
  refine Vector.ext fun c hc => ?_
  simp only [addRoundKey, roundKeyWord, Vector.getElem_ofFn]
  rw [h c hc]

/-- Settles O53: a key has at most 14 rounds, acceptance bounds the round by them, and the completion adds one round
key. -/
theorem addRoundKeyReadsTheLiveSchedule : Obligations.AddRoundKeyReadsTheLiveSchedule := by
  intro s rnd sch hinv hcheck
  obtain ⟨hkv, hrnd⟩ := acceptError_addroundkey.mp hcheck
  have hnr : s.nr.toNat ≤ 14 := (hinv.keyed hkv).nr_le
  refine ⟨by omega, by omega, fun t w hw ht => ?_⟩
  have hstate : t.state = addRoundKey s.state (s.schedule sch) rnd := exec_addroundkey_inFlight hw ht
  refine ⟨fun c => by rw [hstate, addRoundKey_get, roundKeyWord], fun u t' hu hsame hwords ht' => ?_⟩
  rw [exec_addroundkey_inFlight hu ht', hstate, hsame, addRoundKey_congr hwords]

/-- Settles O15: no check of acceptance concerns the six commands, and ADDROUNDKEY passes its checks only with a key. -/
theorem stepCommandsNeedNoKey : Obligations.StepCommandsNeedNoKey := by
  refine ⟨fun s i hidle hi => ?_, fun s t rnd sch hidle ht hpending => ?_⟩
  · have hcheck : acceptError i s = none := by
      simp only [List.mem_cons, List.not_mem_nil, or_false] at hi
      rcases hi with rfl | rfl | rfl | rfl | rfl | rfl <;> rfl
    rw [exec_idle i hidle, accept_accepted hcheck]
    exact ⟨_, rfl, rfl, rfl⟩
  · cases (exec_idle _ hidle).symm.trans ht
    rcases accept_cases (.addroundkey rnd sch) s with ⟨e, -, haccept⟩ | ⟨hcheck, -⟩
    · rw [haccept] at hpending
      exact absurd hidle hpending
    · obtain ⟨hkv, -⟩ := acceptError_addroundkey.mp hcheck
      exact hkv

end Sys2Proof.Machine
end

section
/-! PROOFS. ENCRYPT and DECRYPT round by round, and their known answers (R220, R222, R224). -/

namespace Sys2Proof.Machine

/-- The block after n interior rounds, from round 1 on, as `cipher` and `eqInvCipher` run them (R220, R224). -/
def afterRounds (round : Block → Nat → Block) (b : Block) (n : Nat) : Block := (List.range' 1 n).foldl round b

/-- Round i is applied to the block after the rounds before it. -/
theorem afterRounds_eq_round (round : Block → Nat → Block) (b : Block) {i : Nat} (hi : 1 ≤ i) :
    afterRounds round b i = round (afterRounds round b (i - 1)) i := by
  obtain ⟨n, rfl⟩ := Nat.exists_eq_add_of_le' hi
  rw [afterRounds, List.range'_1_concat, List.foldl_concat, Nat.add_comm 1 n]
  rfl

/-- Settles O33: the sequence is the block after each number of interior rounds. -/
theorem encryptCompletes : Obligations.EncryptCompletes := fun s hw =>
  ⟨afterRounds (encRound s.erk) (addRoundKey s.state s.erk 0), rfl, fun _ hi _ => afterRounds_eq_round _ _ hi,
    runCommand_inFlight hw⟩

/-- Settles O34: the sequence is the block after each number of interior rounds. -/
theorem decryptCompletes : Obligations.DecryptCompletes := fun s hw =>
  ⟨afterRounds (decRound s.drk) (addRoundKey s.state s.drk 0), rfl, fun _ hi _ => afterRounds_eq_round _ _ hi,
    runCommand_inFlight hw⟩

/-- Settles O54: the three keys and the block are closed, so the kernel evaluates the expansions and the ciphers. -/
theorem encryptionKnownAnswers : Obligations.EncryptionKnownAnswers := by
  refine ⟨?_, ?_, ?_⟩ <;>
  · rintro k rfl
    decide +kernel

end Sys2Proof.Machine
end

section
/-! PROOFS. The equivalent inverse cipher on DRK is the textbook inverse cipher on ERK, and the textbook inverse cipher
undoes the cipher on every schedule (R176, R179, R226, R228). -/

namespace Sys2Proof.Machine

/-- Two blocks with the same columns are the same (R22). -/
theorem block_ext_get {s t : Block} (h : ∀ c : Fin 4, s.get c = t.get c) : s = t :=
  Vector.ext fun i hi => h ⟨i, hi⟩

/-- MixColumns undoes InvMixColumns, column by column (R206). -/
@[simp] theorem mixColumns_invMixColumns (s : Block) : mixColumns (invMixColumns s) = s := by
  refine block_ext_get fun c => ?_
  rw [mixColumns_get, invMixColumns_get, mixColumn_invMixColumn]

/-- InvMixColumns undoes MixColumns, column by column (R206). -/
@[simp] theorem invMixColumns_mixColumns (s : Block) : invMixColumns (mixColumns s) = s := by
  refine block_ext_get fun c => ?_
  rw [invMixColumns_get, mixColumns_get, invMixColumn_mixColumn]

/-- AddRoundKey undoes itself (R207). -/
@[simp] theorem addRoundKey_addRoundKey (s : Block) (k : ScheduleBuf) (i : Nat) :
    addRoundKey (addRoundKey s k i) k i = s := by
  refine block_ext_get fun c => ?_
  rw [addRoundKey_get, addRoundKey_get, BitVec.xor_assoc, BitVec.xor_self, BitVec.xor_zero]

/-- A word of a round key of DRK is that of the mirrored round of ERK, in an interior round through InvMixColumn (R176):
round i is mirrored to round NR - i. -/
theorem SchedulesOfAKey.roundKeyWord_drk {s : State} (h : SchedulesOfAKey s) {i : Nat} (hi : i ≤ s.nr.toNat)
    (c : Fin 4) :
    roundKeyWord s.drk i c =
      if 0 < i ∧ i < s.nr.toNat then invMixColumn (roundKeyWord s.erk (s.nr.toNat - i) c)
      else roundKeyWord s.erk (s.nr.toNat - i) c := by
  have hle : s.nr.toNat ≤ 14 := h.nr_le
  obtain ⟨key, _, nk, nr, hp, -, hnr, herk, hdrk⟩ := h
  rw [hnr, toNat_rounds hp] at hi hle ⊢
  have hc : c.val < 4 := c.isLt
  rw [roundKeyWord, roundKeyWord, hdrk, herk, scheduleBuf_getD_live _ hle (by omega),
    scheduleBuf_getD_live _ hle (by omega), inverseSchedule_getD _ hi hc]

/-- The first and the last round key of DRK are the last and the first of ERK (R176). -/
theorem SchedulesOfAKey.addRoundKey_drk_end {s : State} (h : SchedulesOfAKey s) (b : Block) {i : Nat}
    (hi : i = 0 ∨ i = s.nr.toNat) : addRoundKey b s.drk i = addRoundKey b s.erk (s.nr.toNat - i) := by
  refine block_ext_get fun c => ?_
  rw [addRoundKey_get, addRoundKey_get, h.roundKeyWord_drk (by omega), if_neg (by omega)]

/-- Adding an interior round key of DRK after InvMixColumns is adding that of ERK before it: InvMixColumn is linear
(R176, R179). -/
theorem SchedulesOfAKey.addRoundKey_drk_interior {s : State} (h : SchedulesOfAKey s) (b : Block) {i : Nat}
    (h0 : 0 < i) (hi : i < s.nr.toNat) :
    addRoundKey (invMixColumns b) s.drk i = invMixColumns (addRoundKey b s.erk (s.nr.toNat - i)) := by
  refine block_ext_get fun c => ?_
  rw [addRoundKey_get, invMixColumns_get, invMixColumns_get, addRoundKey_get, invMixColumn_xor,
    h.roundKeyWord_drk hi.le, if_pos ⟨h0, hi⟩]

/-- Interior round i of the equivalent inverse cipher is the textbook round with the mirrored round key (R224, R228). -/
theorem SchedulesOfAKey.decRound_drk {s : State} (h : SchedulesOfAKey s) (b : Block) {i : Nat}
    (h0 : 0 < i) (hi : i < s.nr.toNat) : decRound s.drk b i = invRound s.erk b (s.nr.toNat - i) := by
  rw [decRound, invRound, h.addRoundKey_drk_interior _ h0 hi, invShiftRows_invSubBytes]

/-- Counting from n down to 1 is mirroring the count from 1 up to n. -/
theorem reverse_range'_one (n : Nat) : (List.range' 1 n).reverse = (List.range' 1 n).map (n + 1 - ·) := by
  rw [List.reverse_range', List.range'_eq_map_range, List.map_map]
  refine List.map_congr_left fun x _ => ?_
  simp only [Function.comp_apply]
  omega

/-- The interior rounds of the equivalent inverse cipher, upwards on DRK, are the textbook rounds, downwards on ERK. -/
theorem SchedulesOfAKey.foldl_decRound_drk {s : State} (h : SchedulesOfAKey s) (b : Block) :
    (List.range' 1 (s.nr.toNat - 1)).foldl (decRound s.drk) b =
      (List.range' 1 (s.nr.toNat - 1)).reverse.foldl (invRound s.erk) b := by
  rw [reverse_range'_one, List.foldl_map]
  refine List.foldl_ext _ _ b fun x i hi => ?_
  obtain ⟨h1, hlt⟩ := List.mem_range'_1.mp hi
  rw [h.decRound_drk x h1 (by omega), show s.nr.toNat - 1 + 1 - i = s.nr.toNat - i by omega]

/-- The equivalent inverse cipher on DRK is the textbook inverse cipher on ERK (R228). -/
theorem SchedulesOfAKey.eqInvCipher_drk {s : State} (h : SchedulesOfAKey s) (b : Block) :
    eqInvCipher b s.drk s.nr.toNat = invCipher b s.erk s.nr.toNat := by
  unfold eqInvCipher invCipher
  rw [h.addRoundKey_drk_end _ (.inl rfl), h.addRoundKey_drk_end _ (.inr rfl), Nat.sub_zero, Nat.sub_self,
    h.foldl_decRound_drk, invShiftRows_invSubBytes]

/-- Settles O55: the completion of DECRYPT is the equivalent inverse cipher on DRK. -/
theorem decryptionIsTheTextbookInverse : Obligations.DecryptionIsTheTextbookInverse := by
  intro s hinv hkv
  have hkey : SchedulesOfAKey s := hinv.keyed hkv
  refine ⟨hkey.eqInvCipher_drk, fun hw => ?_⟩
  rw [← hkey.eqInvCipher_drk]
  exact runCommand_inFlight hw

/-- If g undoes each step of f as seen through h, then g in reverse order undoes all steps of f as seen through h. -/
theorem foldl_reverse_foldl {α β ι : Type} {f : α → ι → α} {g : β → ι → β} {h : α → β}
    (hstep : ∀ a i, g (h (f a i)) i = h a) (l : List ι) (a : α) : l.reverse.foldl g (h (l.foldl f a)) = h a := by
  induction l generalizing a with
  | nil => rfl
  | cons i l ih => rw [List.foldl_cons, List.reverse_cons, List.foldl_concat, ih, hstep]

/-- A textbook inverse round undoes an encryption round, each taken between SubBytes and ShiftRows (R228). -/
theorem invRound_encRound (k : ScheduleBuf) (b : Block) (i : Nat) :
    invRound k (shiftRows (subBytes (encRound k b i))) i = shiftRows (subBytes b) := by
  simp [invRound, encRound]

/-- An encryption round undoes a textbook inverse round, each taken between InvShiftRows and InvSubBytes (R228). -/
theorem encRound_invRound (k : ScheduleBuf) (b : Block) (i : Nat) :
    encRound k (invSubBytes (invShiftRows (invRound k b i))) i = invSubBytes (invShiftRows b) := by
  simp [invRound, encRound]

/-- The textbook inverse cipher undoes the cipher on every schedule (R226, R228). -/
theorem invCipher_cipher (b : Block) (k : ScheduleBuf) (nr : Nat) : invCipher (cipher b k nr) k nr = b := by
  have hrounds := foldl_reverse_foldl (h := fun x => shiftRows (subBytes x)) (invRound_encRound k)
    (List.range' 1 (nr - 1)) (addRoundKey b k 0)
  simp only [invCipher, cipher, addRoundKey_addRoundKey, hrounds, invShiftRows_shiftRows, invSubBytes_subBytes]

/-- The cipher undoes the textbook inverse cipher on every schedule (R226, R228). -/
theorem cipher_invCipher (b : Block) (k : ScheduleBuf) (nr : Nat) : cipher (invCipher b k nr) k nr = b := by
  have hrounds := foldl_reverse_foldl (h := fun x => invSubBytes (invShiftRows x)) (encRound_invRound k)
    (List.range' 1 (nr - 1)).reverse (addRoundKey b k nr)
  rw [List.reverse_reverse] at hrounds
  simp only [invCipher, cipher, addRoundKey_addRoundKey, hrounds, subBytes_invSubBytes, shiftRows_invShiftRows]

end Sys2Proof.Machine
end

section
/-! PROOFS. Sequences of commands that change STATE only, each followed by WAIT: DECRYPT after ENCRYPT and the reverse,
and the step commands (R223, R226, R227). -/

namespace Sys2Proof.Machine

/-- The commands whose completion changes no register but STATE (R86, R229). -/
def changesStateOnly : Instr → Bool
  | .keyexp _ => false
  | .gfmul _ _ => false
  | .nop | .encrypt | .decrypt | .subbytes | .invsubbytes | .shiftrows | .invshiftrows | .mixcolumns | .invmixcolumns
  | .addroundkey _ _ => true

/-- The block that a command leaves in STATE for block b, with the schedules and the round count of s. -/
def blockAfter (s : State) (b : Block) : Instr → Block
  | .nop | .keyexp _ | .gfmul _ _ => b
  | .encrypt => cipher b s.erk s.nr.toNat
  | .decrypt => eqInvCipher b s.drk s.nr.toNat
  | .subbytes => subBytes b
  | .invsubbytes => invSubBytes b
  | .shiftrows => shiftRows b
  | .invshiftrows => invShiftRows b
  | .mixcolumns => mixColumns b
  | .invmixcolumns => invMixColumns b
  | .addroundkey rnd sch => addRoundKey b (s.schedule sch) rnd

/-- The completion of a command that changes STATE only (R112). -/
theorem exec_changesStateOnly {i : Instr} {s : State} {w : Word} (hi : changesStateOnly i = true)
    (hw : s.pending = some w) : exec i s = .next (finishCommand (setBlock (blockAfter s s.state i) s)) := by
  cases i with
  | keyexp | gfmul => cases hi
  | nop | encrypt | decrypt | subbytes | invsubbytes | shiftrows | invshiftrows | mixcolumns | invmixcolumns
  | addroundkey => exact runCommand_inFlight hw

/-- The block a command leaves depends on the schedules and the round count only, besides the block (R229). -/
theorem blockAfter_congr {s t : State} (h : SameKeySchedules s t) : blockAfter t = blockAfter s := by
  obtain ⟨-, hnr, -, herk, hdrk⟩ := h
  funext b i
  cases i with
  | addroundkey rnd sch => cases sch <;> simp only [blockAfter, State.schedule, herk, hdrk]
  | nop | keyexp | encrypt | decrypt | gfmul | subbytes | invsubbytes | shiftrows | invshiftrows | mixcolumns
  | invmixcolumns => simp only [blockAfter, hnr, herk, hdrk]

/-- A command with an encoding, which acceptance takes in s and whose completion changes STATE only. -/
structure BlockCommand (s : State) (i : Instr) : Prop where
  wellFormed : i.wellFormed = true
  accepted : acceptError i s = none
  stateOnly : changesStateOnly i = true

/-- Acceptance reads KV and NR, which are as before when the schedules are. -/
theorem BlockCommand.of_sameKeySchedules {s t : State} {i : Instr} (h : BlockCommand s i)
    (hk : SameKeySchedules s t) : BlockCommand t i := by
  obtain ⟨hkv, hnr, -, -, -⟩ := hk
  exact ⟨h.wellFormed, (acceptError_congr i hkv hnr).trans h.accepted, h.stateOnly⟩

/-- The registers of t are those of s, but for the block b in STATE and some word in CMD. -/
def LeavesBlock (s : State) (b : Block) (t : State) : Prop := ∃ v, SameRegisters { s with state := b, cmd := v } t

theorem LeavesBlock.refl (s : State) : LeavesBlock s s.state s := ⟨s.cmd, SameRegisters.refl s⟩

theorem LeavesBlock.state_eq {s t : State} {b : Block} (h : LeavesBlock s b t) : t.state = b := by
  obtain ⟨_, hstate, -⟩ := h
  exact hstate

theorem LeavesBlock.sameKeySchedules {s t : State} {b : Block} (h : LeavesBlock s b t) : SameKeySchedules s t := by
  obtain ⟨v, hsame⟩ := h
  exact SameRegisters.sameKeySchedules (s := { s with state := b, cmd := v }) hsame

theorem LeavesBlock.trans {s t u : State} {b b' : Block} (h : LeavesBlock s b t) (h' : LeavesBlock t b' u) :
    LeavesBlock s b' u := by
  obtain ⟨_, -, hkey, -, hbusy, hkv, herr, hecode, hnr, hnk, hgfres, herk, hdrk, hpending⟩ := h
  obtain ⟨v, hsame⟩ := h'
  exact ⟨v, SameRegisters.trans (t := { t with state := b', cmd := v })
    ⟨rfl, hkey, rfl, hbusy, hkv, herr, hecode, hnr, hnk, hgfres, herk, hdrk, hpending⟩ hsame⟩

/-- The completion of a command on an idle core's registers, CMD aside: BUSY and PENDING are as before (R112). -/
theorem sameRegisters_finishCommand_setBlock {s : State} (hidle : s.Idle) (b : Block) (v w : Word) (p : Option Word) :
    SameRegisters { s with state := b, cmd := v }
      { finishCommand (setBlock b { s with cmd := w, pending := p, busy := true }) with cmd := v } := by
  obtain ⟨hb, hpending⟩ := hidle
  exact ⟨rfl, rfl, rfl, hb.symm, rfl, rfl, rfl, rfl, rfl, rfl, rfl, rfl, hpending.symm⟩

/-- One such command, issued and waited for, changes CMD and STATE only (R110, R112). -/
theorem BlockCommand.completes {s : State} {i : Instr} {rest : List HostAction} (h : BlockCommand s i)
    (hidle : s.Idle) (hhost : s.host = commandLine i :: .wait :: rest) :
    ∃ t, Reaches s t ∧ t.Idle ∧ t.host = rest ∧ LeavesBlock s (blockAfter s s.state i) t := by
  obtain ⟨t, u, hreach, htidle, hrest, he, hregs⟩ := issue_wait_completes hidle h.wellFormed h.accepted hhost
  cases (exec_changesStateOnly h.stateOnly rfl).symm.trans he
  have hblock : blockAfter { s with cmd := encode i, pending := some (encode i), busy := true } = blockAfter s :=
    blockAfter_congr ⟨rfl, rfl, rfl, rfl, rfl⟩
  rw [hblock] at hregs
  have hdone := sameRegisters_finishCommand_setBlock hidle (blockAfter s s.state i) (encode i) (encode i) (encode i)
  exact ⟨t, hreach, htidle, hrest, encode i, hdone.trans hregs⟩

/-- Such commands, each issued and waited for, take STATE from block to block. By induction on the commands: each leaves
the schedules, so the later ones are still accepted and still do the same. -/
theorem commandsWithWait_complete {rest : List HostAction} (l : List Instr) : ∀ {s : State}, s.Idle →
    (∀ i ∈ l, BlockCommand s i) → s.host = commandsWithWait l ++ rest →
    ∃ t, Reaches s t ∧ t.Idle ∧ t.host = rest ∧ LeavesBlock s (l.foldl (blockAfter s) s.state) t := by
  induction l with
  | nil => exact fun {s} hidle _ hhost => ⟨s, Reaches.refl s, hidle, hhost, LeavesBlock.refl s⟩
  | cons i l ih =>
    intro s hidle hl hhost
    obtain ⟨hi, hl⟩ := List.forall_mem_cons.mp hl
    obtain ⟨t, hreach, htidle, hthost, hleaves⟩ := hi.completes hidle hhost
    have hk : SameKeySchedules s t := hleaves.sameKeySchedules
    obtain ⟨u, hreach', huidle, hrest, hleaves'⟩ := ih htidle (fun j hj => (hl j hj).of_sameKeySchedules hk) hthost
    rw [blockAfter_congr hk, hleaves.state_eq] at hleaves'
    exact ⟨u, hreach.trans hreach', huidle, hrest, hleaves.trans hleaves'⟩

/-- ENCRYPT needs a key only (R110). -/
theorem blockCommand_encrypt {s : State} (hkv : s.kv = true) : BlockCommand s .encrypt :=
  ⟨rfl, by simp [acceptError, hkv], rfl⟩

/-- DECRYPT needs a key only (R110). -/
theorem blockCommand_decrypt {s : State} (hkv : s.kv = true) : BlockCommand s .decrypt :=
  ⟨rfl, by simp [acceptError, hkv], rfl⟩

/-- With a key DECRYPT undoes ENCRYPT: it is the textbook inverse cipher on ERK (R226, R228). -/
theorem blockAfter_encrypt_decrypt {s : State} (h : SchedulesOfAKey s) (b : Block) :
    blockAfter s (blockAfter s b .encrypt) .decrypt = b :=
  (h.eqInvCipher_drk _).trans (invCipher_cipher b s.erk s.nr.toNat)

/-- With a key ENCRYPT undoes DECRYPT: that is the textbook inverse cipher on ERK (R226, R228). -/
theorem blockAfter_decrypt_encrypt {s : State} (h : SchedulesOfAKey s) (b : Block) :
    blockAfter s (blockAfter s b .decrypt) .encrypt = b :=
  (congrArg (cipher · s.erk s.nr.toNat) (h.eqInvCipher_drk b)).trans (cipher_invCipher b s.erk s.nr.toNat)

/-- Settles O56: the second command undoes the first on the block, and the run leaves the block of the two. -/
theorem decryptionUndoesEncryption : Obligations.DecryptionUndoesEncryption := by
  refine ⟨fun s rest hinv hidle hkv hhost => ?_, fun s rest hinv hidle hkv hhost => ?_⟩
  · obtain ⟨t, ⟨n, hn⟩, htidle, hrest, hleaves⟩ := commandsWithWait_complete _ hidle
      (by simp [blockCommand_encrypt hkv, blockCommand_decrypt hkv]) hhost
    exact ⟨n, t, hn, htidle, hrest, hleaves.state_eq.trans (blockAfter_encrypt_decrypt (hinv.keyed hkv) s.state)⟩
  · obtain ⟨t, ⟨n, hn⟩, htidle, hrest, hleaves⟩ := commandsWithWait_complete _ hidle
      (by simp [blockCommand_encrypt hkv, blockCommand_decrypt hkv]) hhost
    exact ⟨n, t, hn, htidle, hrest, hleaves.state_eq.trans (blockAfter_decrypt_encrypt (hinv.keyed hkv) s.state)⟩

/-- ADDROUNDKEY of a live round needs a key besides (R110, R212). -/
theorem blockCommand_addroundkey {s : State} (hkv : s.kv = true) {rnd : Nat} (hrnd : rnd ≤ s.nr.toNat) (sch : Sched) :
    BlockCommand s (.addroundkey rnd sch) := by
  have hnr : s.nr.toNat < 16 := s.nr.isLt
  exact ⟨decide_eq_true (by omega), acceptError_addroundkey.mpr ⟨hkv, hrnd⟩, rfl⟩

/-- A sequence in the form of R223 and R227 is of such commands if its rounds and its end are. -/
theorem blockCommand_of_mem_rounds {s : State} (hkv : s.kv = true) {sch : Sched} {round : Nat → List Instr}
    {final : List Instr} (hround : ∀ i ≤ s.nr.toNat, ∀ j ∈ round i, BlockCommand s j)
    (hfinal : ∀ j ∈ final, BlockCommand s j) :
    ∀ j ∈ .addroundkey 0 sch :: ((List.range' 1 (s.nr.toNat - 1)).flatMap round).append final, BlockCommand s j := by
  intro j hj
  rw [List.mem_cons, List.append_eq, List.mem_append, List.mem_flatMap] at hj
  rcases hj with rfl | ⟨i, hi, hj⟩ | hj
  · exact blockCommand_addroundkey hkv (Nat.zero_le _) sch
  · obtain ⟨-, hlt⟩ := List.mem_range'_1.mp hi
    exact hround i (by omega) j hj
  · exact hfinal j hj

/-- The step commands of R223 are such commands if a key is loaded. -/
theorem blockCommand_of_mem_encryptSteps {s : State} (hkv : s.kv = true) :
    ∀ j ∈ encryptSteps s.nr.toNat, BlockCommand s j := by
  refine blockCommand_of_mem_rounds hkv (fun i hi => ?_) ?_
  · simp only [encryptRoundSteps, List.forall_mem_cons]
    exact ⟨⟨rfl, rfl, rfl⟩, ⟨rfl, rfl, rfl⟩, ⟨rfl, rfl, rfl⟩, blockCommand_addroundkey hkv hi .enc, nofun⟩
  · simp only [List.forall_mem_cons]
    exact ⟨⟨rfl, rfl, rfl⟩, ⟨rfl, rfl, rfl⟩, blockCommand_addroundkey hkv le_rfl .enc, nofun⟩

/-- The step commands of R227 are such commands if a key is loaded. -/
theorem blockCommand_of_mem_decryptSteps {s : State} (hkv : s.kv = true) :
    ∀ j ∈ decryptSteps s.nr.toNat, BlockCommand s j := by
  refine blockCommand_of_mem_rounds hkv (fun i hi => ?_) ?_
  · simp only [decryptRoundSteps, List.forall_mem_cons]
    exact ⟨⟨rfl, rfl, rfl⟩, ⟨rfl, rfl, rfl⟩, ⟨rfl, rfl, rfl⟩, blockCommand_addroundkey hkv hi .dec, nofun⟩
  · simp only [List.forall_mem_cons]
    exact ⟨⟨rfl, rfl, rfl⟩, ⟨rfl, rfl, rfl⟩, blockCommand_addroundkey hkv le_rfl .dec, nofun⟩

/-- The step commands of R223 take a block through the rounds of the cipher. -/
theorem foldl_encryptSteps (s : State) (b : Block) :
    (encryptSteps s.nr.toNat).foldl (blockAfter s) b = blockAfter s b .encrypt := by
  rw [encryptSteps, List.foldl_cons, List.append_eq, List.foldl_append, List.foldl_flatMap]
  rfl

/-- The step commands of R227 take a block through the rounds of the equivalent inverse cipher. -/
theorem foldl_decryptSteps (s : State) (b : Block) :
    (decryptSteps s.nr.toNat).foldl (blockAfter s) b = blockAfter s b .decrypt := by
  rw [decryptSteps, List.foldl_cons, List.append_eq, List.foldl_append, List.foldl_flatMap]
  rfl

/-- Commands that together leave the block that command i leaves do what i in flight on the starting state completes
with, but for CMD. -/
theorem commandsWithWait_do_what_command_does {s : State} {i : Instr} {l : List Instr} {rest : List HostAction}
    (hidle : s.Idle) (hl : ∀ j ∈ l, BlockCommand s j) (hi : changesStateOnly i = true)
    (hfold : l.foldl (blockAfter s) s.state = blockAfter s s.state i) (hhost : s.host = commandsWithWait l ++ rest) :
    ∃ n t u, runSteps n s = .next t ∧ t.Idle ∧ t.host = rest ∧
      exec i { s with pending := some (encode i), busy := true } = .next u ∧
      SameRegisters { u with cmd := t.cmd } t := by
  obtain ⟨t, ⟨n, hn⟩, htidle, hrest, v, hsame⟩ := commandsWithWait_complete l hidle hl hhost
  have hblock : blockAfter { s with pending := some (encode i), busy := true } = blockAfter s :=
    blockAfter_congr ⟨rfl, rfl, rfl, rfl, rfl⟩
  refine ⟨n, t, _, hn, htidle, hrest, exec_changesStateOnly hi rfl, ?_⟩
  have ⟨_, _, hcmd, _⟩ := hsame
  rw [hfold] at hsame
  rw [hblock, hcmd]
  exact (sameRegisters_finishCommand_setBlock hidle _ v s.cmd (encode i)).symm.trans hsame

/-- Settles O57: the step commands of R223 are the rounds of the cipher, written out. -/
theorem stepCommandsDoWhatEncryptDoes : Obligations.StepCommandsDoWhatEncryptDoes := fun s _ _ hidle hkv hhost =>
  commandsWithWait_do_what_command_does hidle (blockCommand_of_mem_encryptSteps hkv) rfl
    (foldl_encryptSteps s s.state) hhost

/-- Settles O58: the step commands of R227 are the rounds of the equivalent inverse cipher, written out. -/
theorem stepCommandsDoWhatDecryptDoes : Obligations.StepCommandsDoWhatDecryptDoes := fun s _ _ hidle hkv hhost =>
  commandsWithWait_do_what_command_does hidle (blockCommand_of_mem_decryptSteps hkv) rfl
    (foldl_decryptSteps s s.state) hhost

end Sys2Proof.Machine
end

section
/-! PROOFS. The completion of NOP (R240). -/

namespace Sys2Proof.Machine

/-- Settles O26: the completion ends the command on the state as it stands, with no register computed. -/
theorem nopCompletes : Obligations.NopCompletes :=
  fun _ hw => runCommand_inFlight hw

end Sys2Proof.Machine
end

section
/-! PROOFS. The recording of errors, and the refusals of acceptance by value (R251, R252, R254, R258). -/

namespace Sys2Proof.Machine

/-- With ERR set, recording an error changes nothing: ECODE keeps the first (R258). -/
theorem raiseError_of_err (e : CmdError) {s : State} (h : s.err = true) : raiseError e s = s := by
  cases s
  cases h
  rfl

/-- With ERR clear, recording an error stores its code (R258). -/
theorem raiseError_of_not_err (e : CmdError) {s : State} (h : s.err = false) :
    raiseError e s = { s with ecode := e.code, err := true } := by
  simp [raiseError, h]

/-- Settles O11: the recording by the two values of ERR, and the codes by evaluation. -/
theorem errorRecordKeepsTheFirst : Obligations.ErrorRecordKeepsTheFirst :=
  ⟨fun e _ => ⟨raiseError_of_not_err e, raiseError_of_err e⟩, rfl, rfl, rfl, rfl, rfl⟩

/-- `exec` of a command that a check of acceptance refuses records the error of the check (R110). -/
theorem exec_refused {i : Instr} {e : CmdError} {s : State} (hidle : s.pending = none)
    (hcheck : acceptError i s = some e) : exec i s = .next (raiseError e s) := by
  rw [exec_idle i hidle, accept_refused hcheck]

/-- The check of KEYEXP fails on every length but the three legal ones (R251). -/
theorem acceptError_keyexp_of_ne {klen : Nat} (s : State) (h : klen ≠ 16 ∧ klen ≠ 24 ∧ klen ≠ 32) :
    acceptError (.keyexp klen) s = some .invalidKeySize := by
  rw [acceptError, keyParams_none.mpr h, Option.isNone_none, if_pos rfl]

/-- The check of ADDROUNDKEY on the round, which comes after the one on the key (R110, R254). -/
theorem acceptError_addroundkey_of_lt {rnd : Nat} {sch : Sched} {s : State} (hkv : s.kv = true)
    (h : s.nr.toNat < rnd) : acceptError (.addroundkey rnd sch) s = some .roundOutOfRange := by
  simp [acceptError, hkv, h]

/-- Settles O12: the length is none of the three that the key check passes. -/
theorem wrongKeyLengthIsRefused : Obligations.WrongKeyLengthIsRefused := fun s _ hidle h16 h24 h32 =>
  exec_refused hidle (acceptError_keyexp_of_ne s ⟨h16, h24, h32⟩)

/-- Settles O13: for each of the three commands the first check of acceptance is the one on KV. -/
theorem noKeyIsRefused : Obligations.NoKeyIsRefused := by
  intro s i hidle hkv hi
  have hcheck : acceptError i s = some .noKey := by
    rcases hi with rfl | rfl | ⟨rnd, sch, rfl⟩ <;> simp [acceptError, hkv]
  exact exec_refused hidle hcheck

/-- Settles O14: the two sides of the bound on the round. -/
theorem roundOutOfRangeIsRefused : Obligations.RoundOutOfRangeIsRefused := by
  refine fun s rnd sch hidle hkv => ⟨fun hlt => ?_, fun heq => ?_⟩
  · exact exec_refused hidle (acceptError_addroundkey_of_lt hkv hlt)
  · rw [exec_idle _ hidle, accept_accepted (acceptError_addroundkey.mpr ⟨hkv, heq.le⟩)]
    exact ⟨_, rfl, rfl, rfl⟩

end Sys2Proof.Machine
end

section
/-! PROOFS. Reset whatever is in flight, and the end of WAIT (R290, R291, R306). -/

namespace Sys2Proof.Machine

/-- At the host's turn a RESET resets the core, whatever is in flight, and the host goes on behind it (R290, R291). -/
theorem step_reset {s : State} {rest : List HostAction} (hturn : s.pending = none ∨ s.remaining ≠ 0)
    (hhost : s.host = .reset :: rest) :
    ∃ u, step s = .next (resetCore u) ∧ u.host = rest ∧ u.observed = s.observed := by
  rcases step_cases s with ⟨w, hw, hr, -⟩ | ⟨w, -, -, hs⟩ | ⟨-, hs⟩
  · rcases hturn with hn | hr'
    · cases hn.symm.trans hw
    · exact absurd hr hr'
  · exact ⟨setHost rest (tick s), hs.trans (hostTurn_cons (s := tick s) hhost), rfl, rfl⟩
  · exact ⟨setHost rest s, hs.trans (hostTurn_cons hhost), rfl, rfl⟩

/-- Settles O24: the step runs `resetCore`, whose registers are those of the reset state (R54). -/
theorem resetPutsEveryRegisterToItsResetValue : Obligations.ResetPutsEveryRegisterToItsResetValue := by
  intro s rest hhost hturn
  obtain ⟨u, hstep, hrest, hobserved⟩ := step_reset hturn hhost
  exact ⟨_, hstep, hrest, hobserved, resetStateHasTheResetValues⟩

/-- A WAIT on a command in flight ends with one poll for each step of the window, the completion, and the poll after it
(R112, R121). -/
theorem wait_ends {i : Instr} {w : Word} {rest : List HostAction} (hd : decode w = .ok i) :
    ∀ (n : Nat) (s : State), s.pending = some w → s.busy = true → s.remaining = n → s.host = .wait :: rest →
      ∃ t, runSteps (n + 2) s = .next t ∧ t.Idle ∧ t.host = rest
  | 0, s, hw, _, hr, hhost => by
    obtain ⟨u, he, hpending, hbusy, -, -, -, -, -, -, -, huhost, -⟩ := exec_inFlight i hw
    have hcompletes : step s = .next u := by rw [step_engine hw hr, engineTurn_ok hd, he]
    have hpoll := step_wait_idle ⟨hbusy, hpending⟩ (huhost.trans hhost)
    exact ⟨_, (runSteps_next hcompletes 1).trans (runSteps_next hpoll 0), ⟨hbusy, hpending⟩, rfl⟩
  | n + 1, s, hw, hb, hr, hhost => by
    obtain ⟨s', hpoll, hsame, hr', hhost'⟩ := step_wait_busy hw hb hr hhost
    have ⟨_, _, _, hbusy, _, _, _, _, _, _, _, _, hpending⟩ := hsame
    obtain ⟨t, hrun, hend⟩ := wait_ends hd n s' (hpending.trans hw) (hbusy.trans hb) hr' hhost'
    exact ⟨t, (runSteps_next hpoll (n + 2)).trans hrun, hend⟩

/-- Settles O43: an idle core ends the WAIT with its first poll, a busy one two steps after its window. -/
theorem waitEnds : Obligations.WaitEnds := by
  intro s rest hinv hhost
  rcases hb : s.busy with _ | _
  · have hidle : s.Idle := ⟨hb, hinv.pending_eq_none hb⟩
    exact ⟨1, _, by omega, runSteps_next (step_wait_idle hidle hhost) 0, hidle, rfl⟩
  · obtain ⟨w, hw⟩ := Option.isSome_iff_exists.mp (hinv.busyIff.symm.trans hb)
    obtain ⟨-, i, hd, -⟩ := hinv.inFlight w hw
    obtain ⟨t, hrun, hend⟩ := wait_ends hd s.remaining s hw hb rfl hhost
    exact ⟨s.remaining + 2, t, le_rfl, hrun, hend⟩

end Sys2Proof.Machine
end

section
/-! PROOFS. What a host that keeps R301's discipline never does: write while busy, or read a free word
(R78, R79, R301). -/

namespace Sys2Proof.Machine

/-- What R301's discipline allows next, and what it leaves to keep: no bus access, no write and only a STATUS read while
waiting. -/
theorem disciplined_cons {b : Bool} {a : HostAction} {rest : List HostAction} (h : disciplined b (a :: rest) = true) :
    (∃ off, a = .read off ∧ (b = true → off = statusOffset) ∧ disciplined b rest = true) ∨
    (∃ off v, a = .write off v ∧ b = false ∧ disciplined (regAt off == .cmd) rest = true) ∨
    ((a = .reset ∨ a = .wait) ∧ disciplined false rest = true) := by
  cases a with
  | read off =>
    cases b with
    | false => exact .inl ⟨off, rfl, nofun, h⟩
    | true =>
      simp only [disciplined, readsStatus, Bool.and_eq_true, beq_iff_eq] at h
      exact .inl ⟨off, rfl, fun _ => h.1, h.2⟩
  | write off v =>
    cases b with
    | false => exact .inr (.inl ⟨off, v, rfl, rfl, h⟩)
    | true => cases h
  | reset => exact .inr (.inr ⟨.inl rfl, by simpa [disciplined] using h⟩)
  | wait => exact .inr (.inr ⟨.inr rfl, by simpa [disciplined] using h⟩)
  | busRead | busWrite => simp [disciplined] at h

/-- A host that may go on while a command is in flight may go on once it has completed, too (R301). -/
theorem disciplined_of_waiting : ∀ {l : List HostAction}, disciplined true l = true → ∀ b, disciplined b l = true
  | _, h, true => h
  | [], _, false => rfl
  | a :: rest, h, false => by
    rcases disciplined_cons h with ⟨off, rfl, -, hrest⟩ | ⟨_, _, -, hb, -⟩ | ⟨rfl | rfl, hrest⟩
    · exact disciplined_of_waiting hrest false
    · cases hb
    · exact hrest
    · exact hrest

/-- The host of t keeps R301's discipline, and the way there from s drew no free word (R79) and recorded no
WRITE_WHILE_BUSY (R256, whose code is 5). -/
structure StaysDisciplined (s t : State) : Prop where
  disciplined : disciplined t.busy t.host = true
  freeReads : t.freeReads = s.freeReads
  noWriteWhileBusy : t.ecode = 5 → s.ecode = 5

/-- A read that the discipline allows is exact (R79): of an idle core, or of STATUS. -/
theorem readIsFree_disciplined {off : BitVec 8} {s : State} (h : s.busy = true → off = statusOffset) :
    readIsFree off s = false := by
  rcases hb : s.busy with _ | _
  · exact readIsFree_idle off hb
  · rw [h hb, readIsFree_status]

/-- A read that the discipline allows draws no free word (R77, R79). -/
theorem staysDisciplined_hostRead {off : BitVec 8} {s : State} (hoff : s.busy = true → off = statusOffset)
    (h : disciplined s.busy s.host = true) : StaysDisciplined s (hostRead off s) := by
  rw [hostRead_exact (readIsFree_disciplined hoff)]
  exact ⟨h, rfl, id⟩

/-- A poll that sees BUSY leaves the WAIT to do, and every other one leaves the actions after it (R121). -/
theorem staysDisciplined_hostWait {s : State} (h : disciplined false s.host = true) :
    StaysDisciplined s (hostWait s) := by
  have hread : hostRead statusOffset s = { s with observed := _ :: s.observed } := hostRead_exact (readIsFree_status s)
  rcases hb : s.busy with _ | _
  · rw [hostWait_idle hb, hread]
    exact ⟨by rwa [hb], rfl, id⟩
  · rw [hostWait_busy hb, hread]
    exact ⟨by simpa [disciplined] using h, rfl, id⟩

/-- A reset leaves an idle core without an error (R54, R290). -/
theorem staysDisciplined_resetCore {s : State} (h : disciplined false s.host = true) :
    StaysDisciplined s (resetCore s) :=
  ⟨h, rfl, nofun⟩

/-- An error of acceptance is no WRITE_WHILE_BUSY, and a recorded one is kept (R258). -/
theorem raiseError_ecode_of_eq_five {e : CmdError} (he : e ≠ .writeWhileBusy) {s : State}
    (h : (raiseError e s).ecode = 5) : s.ecode = 5 := by
  rw [raiseError_ecode] at h
  split at h
  · exact h
  · exact absurd h (code_ne_five he)

/-- A write to CMD of an idle core may put a command into flight, and the host waits from then on; a refused command
records an error of acceptance (R110). -/
theorem staysDisciplined_issueCommand {v : Word} {s t : State} (hidle : s.pending = none)
    (h : disciplined true s.host = true) (hissue : issueCommand v s = .next t) : StaysDisciplined s t := by
  rcases issueCommand_cases v hidle with ⟨_, -, e⟩ | ⟨i, err, -, hcheck, e⟩ | ⟨i, -, -, e⟩ <;>
    cases e.symm.trans hissue
  · exact ⟨disciplined_of_waiting h _, rfl, raiseError_ecode_of_eq_five (e := .illegalCommand) (s := setCmd v s) nofun⟩
  · have herr : err ≠ .writeWhileBusy := fun heq =>
      acceptError_ne_writeWhileBusy i s (hcheck.trans (congrArg some heq))
    exact ⟨disciplined_of_waiting h _, rfl, raiseError_ecode_of_eq_five (s := setCmd v s) herr⟩
  · exact ⟨h, rfl, id⟩

/-- A write that the discipline allows is one to an idle core; only one to CMD makes the host wait (R75, R301). -/
theorem staysDisciplined_hostWrite {off : BitVec 8} {v : Word} {s t : State} (hb : s.busy = false)
    (hidle : s.pending = none) (h : disciplined (regAt off == .cmd) s.host = true)
    (hwrite : hostWrite off v s = .next t) : StaysDisciplined s t := by
  rcases hcmd : regAt off == .cmd with _ | _ <;> rw [hcmd] at h
  · have hregs : disciplined s.busy s.host = true := by rwa [hb]
    rcases hostWrite_cases off v s with ⟨hb', -⟩ | ⟨-, ⟨hcmd', -⟩ | ⟨-, e⟩ | ⟨c, -, e⟩ | ⟨i, -, e⟩ | e⟩
    · cases hb.symm.trans hb'
    · simp [hcmd'] at hcmd
    · cases e.symm.trans hwrite
      split
      · exact ⟨hregs, rfl, nofun⟩
      · exact ⟨hregs, rfl, id⟩
    · cases e.symm.trans hwrite
      exact ⟨hregs, rfl, id⟩
    · cases e.symm.trans hwrite
      exact ⟨hregs, rfl, id⟩
    · cases e.symm.trans hwrite
      exact ⟨hregs, rfl, id⟩
  · rw [hostWrite_idle off v hb, eq_of_beq hcmd] at hwrite
    exact staysDisciplined_issueCommand hidle h hwrite

/-- A disciplined host's turn is one that the discipline allows. -/
theorem staysDisciplined_hostTurn {s t : State} (hidle : s.busy = false → s.pending = none)
    (h : disciplined s.busy s.host = true) (hturn : hostTurn s = .next t) : StaysDisciplined s t := by
  rcases hhost : s.host with _ | ⟨a, rest⟩
  · rw [hostTurn, hhost] at hturn
    cases hturn
    exact ⟨h, rfl, id⟩
  · rw [hhost] at h
    rw [hostTurn_cons hhost] at hturn
    suffices hrest : StaysDisciplined (setHost rest s) t from
      ⟨hrest.disciplined, hrest.freeReads, hrest.noWriteWhileBusy⟩
    rcases disciplined_cons h with ⟨off, rfl, hoff, hrest⟩ | ⟨off, v, rfl, hb, hrest⟩ | ⟨rfl | rfl, hrest⟩
    · cases hturn
      exact staysDisciplined_hostRead hoff hrest
    · exact staysDisciplined_hostWrite hb (hidle hb) hrest hturn
    · cases hturn
      exact staysDisciplined_resetCore hrest
    · cases hturn
      exact staysDisciplined_hostWait hrest

/-- The completion of the command in flight ends the waiting and records nothing (R112, R257). -/
theorem staysDisciplined_exec {i : Instr} {s t : State} {w : Word} (hw : s.pending = some w)
    (h : disciplined true s.host = true) (he : exec i s = .next t) : StaysDisciplined s t := by
  obtain ⟨t', he', -, -, -, -, -, -, hecode, -, hfree, hhost, -⟩ := exec_inFlight i hw
  cases he'.symm.trans he
  exact ⟨hhost ▸ disciplined_of_waiting h _, hfree, hecode ▸ id⟩

/-- Every step of a disciplined host is a completion or a turn that the discipline allows. -/
theorem staysDisciplined_step {s t : State} (hinv : CoreInv s) (h : disciplined s.busy s.host = true)
    (hstep : step s = .next t) : StaysDisciplined s t := by
  rcases step_cases s with ⟨w, hw, -, hs⟩ | ⟨w, -, -, hs⟩ | ⟨-, hs⟩ <;> rw [hs] at hstep
  · obtain ⟨-, i, hd, -⟩ := hinv.inFlight w hw
    rw [engineTurn_ok hd] at hstep
    have hb : s.busy = true := by rw [hinv.busyIff, hw, Option.isSome_some]
    exact staysDisciplined_exec hw (hb ▸ h) hstep
  · obtain ⟨hdisciplined, hfree, hfive⟩ := staysDisciplined_hostTurn (s := tick s) hinv.pending_eq_none h hstep
    exact ⟨hdisciplined, hfree, hfive⟩
  · exact staysDisciplined_hostTurn hinv.pending_eq_none h hstep

/-- While a command is in flight the next action of a disciplined host is no write (R301). -/
theorem not_writesNext_of_waiting {s : State} (h : disciplined true s.host = true) (off : BitVec 8) (v : Word) :
    ¬ WritesNext s off v := by
  rintro (⟨-, hhead⟩ | ⟨addr, bytes, ⟨-, hhead⟩, -⟩)
  all_goals
    obtain ⟨rest, hhost⟩ := List.head?_eq_some_iff.mp hhead
    rw [hhost] at h
    cases h

/-- Settles O42: each action that the discipline allows keeps it, and in flight it allows no write, without which only a
reset changes the error record (O40). -/
theorem disciplinedHostsNeverWriteWhileBusyOrReadFreeWords :
    Obligations.DisciplinedHostsNeverWriteWhileBusyOrReadFreeWords := by
  intro s t hinv h hstep
  obtain ⟨hdisciplined, hfree, hfive⟩ := staysDisciplined_step hinv h hstep
  refine ⟨hdisciplined, hfree, hfive, fun hb hreset => ?_⟩
  obtain ⟨-, -, -, -, herror⟩ := whoMayChangeEachRegister s t hinv hstep
  by_contra hne
  obtain ⟨off, v, hwrites⟩ := (herror (not_and_or.mp hne)).resolve_left hreset
  exact not_writesNext_of_waiting (hb ▸ h) off v hwrites

end Sys2Proof.Machine
end
